-- ==== Sys2Proof/Word.lean ====
section
/-! DEFINITION. The words of the block: bytes and 16-bit values, all unsigned (00_scope.md R10). -/

namespace Sys2Proof

/-- 8 bits (R10). -/
abbrev Byte := BitVec 8

/-- 16 bits: the accumulator, `param2`, an address, a checksum. -/
abbrev Half := BitVec 16

end Sys2Proof
end

