-- ==== Sys2Proof/Machine/Bytes.lean ====
section
/-! DEFINITION. Byte order and slices of byte sequences (00_scope.md R11, R12; 20_memory.md R55, R56). -/

namespace Sys2Proof.Machine

/-- `v[7:0]` (R11). -/
def lo8 (v : Half) : Byte := v.extractLsb' 0 8

/-- `v[15:8]` (R11). -/
def hi8 (v : Half) : Byte := v.extractLsb' 8 8

/-- `le16(v) = [lo8(v), hi8(v)]` (R12). -/
def le16 (v : Half) : List Byte := [lo8 v, hi8 v]

/-- `from_le16([a, b]) = {b, a}`, `b` the high byte (R12). -/
def fromLe16 (a b : Byte) : Half := b ++ a

/-- The `n` bytes of `B` from index `i` on (R12's `B[i .. i+n-1]`). -/
def slice (B : List Byte) (i n : Nat) : List Byte := (B.drop i).take n

/-- The trailing 16-bit value of a sequence of length `L`: `from_le16(B[L-2 .. L-1])` (30_encoding.md R88,
R91). Used only where `B` has those two bytes. -/
def trailer (B : List Byte) (L : Nat) : Half := fromLe16 (B.getD (L - 2) 0) (B.getD (L - 1) 0)

end Sys2Proof.Machine
end

