-- ==== Sys2Proof/Config.lean ====
section
/-! DEFINITION. What an implementation fixes (the open parameters of 00_scope.md R8) and the free value of the
model (the transport's answers, 93_implementation_defined.md U12). -/

namespace Sys2Proof

/-- A bus address: opaque to the block, never computed with (20_memory.md R51). -/
abbrev BusAddr := Nat

/-- A duration in microseconds; only carried in events (43_transport.md R184, log entry 9). -/
abbrev Duration := Nat

/-- One answer of the transport (43_transport.md R181, R182): `Err`, or `Ok` with the bytes read. A write is
told `Ok` or `Err` and no more, so for a write the bytes of an `ok` mean nothing. -/
inductive BusReply where
  | ok (bytes : List Byte)
  | err
  deriving DecidableEq, Repr, Inhabited

/-- FREE VALUE (log entry 4): the answer of the transport once the answers listed in `State.script` are used
up. The environment chooses it and the block may assume nothing about it (43_transport.md R181, R182). -/
opaque Config.busReply : Nat → BusReply

/-- The three zones of the device (20_memory.md R52). -/
inductive Zone where
  | config
  | otp
  | data
  deriving DecidableEq, Repr

/-- The parameters 00_scope.md R8 leaves open, each under its own name. They are constant for the block's
lifetime (10_state.md R34). `maxData` carries its bound, at most 248, and the zone codes theirs, below 0x80,
in their types. `tWlo`, `busTimeout`, `opRandom` and the zone codes are read by no rule of the block. -/
structure Params where
  devAddr : BusAddr
  wakeAddr : BusAddr
  waIdle : Byte
  waSleep : Byte
  tWlo : Duration
  tWhi : Duration
  execDelay : Vector Duration 256
  busTimeout : Duration
  opRead : Byte
  opRandom : Byte
  zoneConfig : BitVec 7
  zoneOtp : BitVec 7
  zoneData : BitVec 7
  maxData : Fin 249
  deriving DecidableEq, Repr

end Sys2Proof
end

