-- ==== Sys2Proof/Machine/Constants.lean ====
section
/-! DEFINITION. The constants the spec fixes (00_scope.md R7), the value it decides (`WAKE_LEAD`, R8, log entry
11) and the values the parameters have at reset (R8's suggestions, log entries 5 and 6). -/

namespace Sys2Proof.Machine

/-- `POLY` (R7). -/
def poly : Half := 0x8005

/-- `WORD_MARKER`: the first byte of every command frame (R7). -/
def wordMarker : Byte := 0x03

/-- `CHUNK_MAX`: the largest single read (R7). -/
def chunkMax : Nat := 32

/-- `RETRY_MAX`: the bound of `RETRY` (R7). -/
def retryMax : BitVec 5 := 20

/-- `WAKE_RSP_LEN` (R7). -/
def wakeRspLen : Nat := 4

/-- `WAKE_ACK` (R7). -/
def wakeAck : Byte := 0x11

/-- `WAKE_PULSE` (R7). -/
def wakePulse : List Byte := [0x00]

/-- The 4-byte read length of `READ_LEN_SET` (R7). -/
def readLenShort : Byte := 4

/-- The 32-byte read length of `READ_LEN_SET` (R7). -/
def readLenLong : Byte := 32

/-- `RSP_OVERHEAD`: count byte and two checksum bytes (R7). -/
def rspOverhead : Nat := 3

/-- `CMD_OVERHEAD`: what the length byte counts beside the data (R7, 30_encoding.md R89). -/
def cmdOverhead : Nat := 7

/-- `WAKE_LEAD`, decided by the spec (R8, 92_eei_decisions.md D11). -/
def wakeLead : Byte := 0x04

/-- `RX_MAX` (R8). -/
def rxMax : Nat := 255

/-- `TX_MAX` = 8 + `MAX_DATA` (R8). -/
def txMax (p : Params) : Nat := 8 + p.maxData.val

/-- `EXEC_DELAY(opcode)`: a static table, total on the 256 opcodes (44_dispatch.md R206). -/
def execDelayOf (p : Params) (opcode : Byte) : Duration := p.execDelay[opcode.toNat]'opcode.isLt

/-- The code of a zone as a byte, below 0x80 (20_memory.md R65). -/
def zoneByte (p : Params) : Zone → Byte
  | .config => p.zoneConfig.setWidth 8
  | .otp => p.zoneOtp.setWidth 8
  | .data => p.zoneData.setWidth 8

/-- PRESUMED (log entry 5): the values 00_scope.md R8 suggests for the open parameters, those of the chip family
the repository name points to. `EXEC_DELAY` of an opcode other than read and random is a DESIGN CHOICE, 0 (log
entry 6). No statement rests on any of them. -/
def presumedParams : Params where
  devAddr := 0xC0
  wakeAddr := 0x00
  waIdle := 0x02
  waSleep := 0x01
  tWlo := 60
  tWhi := 1500
  execDelay := (Vector.replicate 256 0).set 0x02 1000 |>.set 0x1B 23000
  busTimeout := 1000000
  opRead := 0x02
  opRandom := 0x1B
  zoneConfig := 0
  zoneOtp := 1
  zoneData := 2
  maxData := 148

end Sys2Proof.Machine
end

