-- ==== Sys2Proof/Machine/Crc.lean ====
section
/-! DEFINITION. The Checksum-16 algorithm as pure functions (40_checksum.md R120 to R123). -/

namespace Sys2Proof.Machine

/-- One data bit (R120): the top bit is read before the shift, the bit leaving bit 15 is lost, and the
polynomial is xored in when the data bit differs from the old top bit. -/
def crcStep (acc : Half) (d : Bool) : Half :=
  if d = acc.msb then acc <<< 1 else (acc <<< 1) ^^^ poly

/-- One byte, bit 0 first (R121). -/
def crcByte (acc : Half) (b : Byte) : Half :=
  [0, 1, 2, 3, 4, 5, 6, 7].foldl (fun a i => crcStep a (b.getLsbD i)) acc

/-- A byte sequence in index order (R122). -/
def crcUpdate (acc : Half) (B : List Byte) : Half := B.foldl crcByte acc

/-- The checksum of a byte sequence: start value 0, nothing done at the end (R123). -/
def crc16 (B : List Byte) : Half := crcUpdate 0x0000 B

/-- `WAKE_CRC = crc16([WAKE_LEAD, WAKE_ACK])` (00_scope.md R8). -/
def wakeCrc : Half := crc16 [wakeLead, wakeAck]

end Sys2Proof.Machine
end

