-- ==== Sys2Proof/Machine/Flags.lean ====
section
/-! DEFINITION. The block has no flags and no condition codes (10_state.md R24): the only status an operation
gives is its result. This file holds the results (60_exceptions.md R240), the power states (10_state.md R25),
their numeric codes (92_eei_decisions.md D3, D4) and the response packet (30_encoding.md R80). -/

namespace Sys2Proof.Machine

/-- The error results of R240. An error carries no further value (R248). -/
inductive Error where
  | transportError
  | wakeVerificationFailed
  | checksumMismatch
  | shortResponse
  | receiveExhausted
  | invalidArgument
  | unimplemented
  deriving DecidableEq, Repr

/-- The numeric code of an error result (R240). -/
def Error.code : Error → Byte
  | .transportError => 0x01
  | .wakeVerificationFailed => 0x02
  | .checksumMismatch => 0x03
  | .shortResponse => 0x04
  | .receiveExhausted => 0x05
  | .invalidArgument => 0x06
  | .unimplemented => 0x07

/-- What the host gets for one request (R80): `Ok` with the operation's value (no byte where it has none), or
an error by itself. -/
inductive Response where
  | ok (value : List Byte)
  | error (e : Error)
  deriving DecidableEq, Repr

/-- The response packet `P`: the result code, then the value when the code is Ok (0x00) (R80). -/
def Response.packet : Response → List Byte
  | .ok value => 0x00 :: value
  | .error e => [e.code]

/-- The result of an operation as a response. -/
def Response.ofResult : Except Error (List Byte) → Response
  | .ok value => .ok value
  | .error e => .error e

/-- The believed power state of the device, the values of `PST` (R25). -/
inductive PowerState where
  | unknown
  | sleeping
  | idle
  | awake
  deriving DecidableEq, Repr

/-- The two-bit coding of `PST` (R25). -/
def PowerState.code : PowerState → BitVec 2
  | .unknown => 0
  | .sleeping => 1
  | .idle => 2
  | .awake => 3

end Sys2Proof.Machine
end

