-- ==== Sys2Proof/Machine/Frame.lean ====
section
/-! DEFINITION. The two pure functions of the frame codec (42_frame_codec.md R160, R163). -/

namespace Sys2Proof.Machine

/-- The checksummed part of a command frame: length byte `7 + N`, opcode, param1, param2 low byte first,
data (R160; 30_encoding.md R88, R89, R94). -/
def frameBody (opcode param1 : Byte) (param2 : Half) (data : List Byte) : List Byte :=
  BitVec.ofNat 8 (cmdOverhead + data.length) :: opcode :: param1 :: (le16 param2 ++ data)

/-- `encode(opcode, param1, param2, data)` (R160), for at most `MAX_DATA` data bytes. -/
def encodeFrame (opcode param1 : Byte) (param2 : Half) (data : List Byte) : List Byte :=
  wordMarker :: (frameBody opcode param1 param2 data ++ le16 (crc16 (frameBody opcode param1 param2 data)))

/-- The part of a response of total length `L` that its checksum covers: `raw[0 .. L-3]` (R163). -/
def coveredPart (raw : List Byte) (L : Nat) : List Byte := slice raw 0 (L - 2)

/-- The payload of a response of total length `L`: `raw[1 .. L-3]` (R163). -/
def payloadPart (raw : List Byte) (L : Nat) : List Byte := slice raw 1 (L - rspOverhead)

/-- `validate(raw, L)` for `3 <= L` (R163): the length test first, then the checksum test. -/
def validate (raw : List Byte) (L : Nat) : Except Error (List Byte) :=
  if raw.length ≠ L then .error .shortResponse
  else if trailer raw L ≠ crc16 (coveredPart raw L) then .error .checksumMismatch
  else .ok (payloadPart raw L)

end Sys2Proof.Machine
end

