-- ==== Sys2Proof/Machine/State.lean ====
section
/-! DEFINITION. The state of the block as plain data (10_state.md), the reasons a step can stop, and the state
after reset. -/

namespace Sys2Proof.Machine

/-- A byte buffer (20_memory.md R53): index and byte, indexes strictly rising. An index that is not listed has
no value: its contents are unspecified (10_state.md R30, R31, R35; log entry 7). -/
abbrev Memory := List Host.Cell

/-- Who asked for a command cycle: the host with EXECUTE, or step Z3 of ZONE_READ (45_zone.md R221). -/
inductive Origin where
  | request
  | zoneRead
  deriving DecidableEq, Repr

/-- The operands of a command cycle in progress (44_dispatch.md R201). -/
structure Command where
  opcode : Byte
  param1 : Byte
  param2 : Half
  data : List Byte
  expected : Byte
  origin : Origin
  deriving DecidableEq, Repr

/-- Who performs WAKE, RECEIVE or IDLE: the host's own request, or a step of EXECUTE (00_scope.md R16). -/
inductive Parent where
  | host
  | execute (c : Command)
  deriving DecidableEq, Repr

/-- The sequencer state (10_state.md R23): READY, or the step label that the running operation has reached,
with the values its remaining steps still need (the continuation R23 allows). A label inside EXECUTE carries
the command; `i1` and `i2` carry the response that step E6 will validate. -/
inductive Seq where
  | ready
  | w1 (p : Parent)
  | w2 (p : Parent)
  | w3 (p : Parent)
  | w4 (p : Parent) (c0 c1 : Byte)
  | w5 (p : Parent)
  | i1 (p : Parent) (received : List Byte)
  | i2 (p : Parent) (received : List Byte)
  | s1
  | s2
  | v1 (p : Parent) (total : Byte)
  | v2 (p : Parent)
  | v3 (p : Parent) (r : BusReply)
  | v4 (p : Parent)
  | e0 (c : Command)
  | e1 (c : Command)
  | e2 (c : Command)
  | e3 (c : Command)
  | e4 (c : Command)
  | e5 (c : Command) (received : List Byte)
  | e6 (c : Command) (received : List Byte)
  | z1 (zone : Byte) (address : Half) (length : Byte)
  | z2 (zone : Byte) (address : Half) (length : Byte)
  | z3 (param1 : Byte) (address : Half) (length : Byte)
  | z4 (payload : List Byte)
  deriving DecidableEq, Repr

/-- What the block is told of a `BusWrite` (43_transport.md R181). -/
inductive WriteResult where
  | ok
  | err
  deriving DecidableEq, Repr

/-- The events of 43_transport.md R185: one `BusWrite`, one `BusReadChunk`, one `Delay`. -/
inductive Event where
  | wr (addr : BusAddr) (bytes : List Byte) (result : WriteResult)
  | rd (addr : BusAddr) (n : Nat) (result : BusReply)
  | dl (t : Duration)
  deriving DecidableEq, Repr

/-- The state. The first nine fields are the spec's own (10_state.md, summary table); the last six are the
model's: the parameters (log entry 5), the host's requests (log entry 2), the responses and the trace (log
entry 3), the transport's answers to come and the counter of free ones (log entry 4). -/
structure State where
  /-- `ACC` (R20). -/
  acc : Half
  /-- `PST` (R25). -/
  pst : PowerState
  /-- `RETRY` (R27). -/
  retry : BitVec 5
  /-- `CUR` (R28). -/
  cur : Byte
  /-- `TOTAL` (R29). -/
  total : Byte
  /-- `TXBUF` (R30). -/
  txbuf : Memory
  /-- `TXLEN` (R30). -/
  txlen : BitVec 9
  /-- `RXBUF` (R31). -/
  rxbuf : Memory
  /-- `SEQ` (R23). -/
  seq : Seq
  /-- The open parameters (00_scope.md R8); no operation writes them. -/
  params : Params
  /-- The request packets the host will present, the next one first. -/
  requests : List (List Byte)
  /-- The responses sent, the first one first. -/
  responses : List Response
  /-- The transport's next answers, in order. -/
  script : List BusReply
  /-- How many free answers (`Config.busReply`) have been taken. -/
  oracle : Nat
  /-- The events so far, the first one first. -/
  trace : List Event
  deriving DecidableEq, Repr

/-- Why a step stops the machine. -/
inductive Fault where
  /-- Raised by step V4 of a receive when a byte of `RXBUF` below `TOTAL` has never been written (10_state.md
  R35: no rule may read it). Safe: the machine stops. No operation begun from READY reaches it. -/
  | unspecifiedBuffer
  deriving DecidableEq, Repr

/-- Why an instruction is given no meaning. -/
inductive Refusal where
  /-- Raised by an arm of `exec` whose instruction has no meaning yet; no arm does so. Safe. -/
  | notModelled (mnemonic : String)
  /-- Raised by WIRE_COMMAND_FRAME with more data than `MAX_DATA`: `encode` has no meaning there
  (42_frame_codec.md R160; log entry 10). Safe. -/
  | frameTooLong
  deriving DecidableEq, Repr

/-- The state right after reset (10_state.md R35, 70_reset_and_hazards.md R280): `ACC`, `RETRY`, `CUR`, `TOTAL`
and `TXLEN` zero, `PST` Unknown, `SEQ` READY, nothing listed in the buffers; no bus event (R281). -/
def State.reset : State where
  acc := 0x0000
  pst := .unknown
  retry := 0
  cur := 0
  total := 0
  txbuf := []
  txlen := 0
  rxbuf := []
  seq := .ready
  params := presumedParams
  requests := []
  responses := []
  script := []
  oracle := 0
  trace := []

end Sys2Proof.Machine
end

