-- ==== Sys2Proof/Machine/Ops.lean ====
section
/-! DEFINITION. The named operations on the state: the buffers, the registers, the transport (43_transport.md R180
to R185), how an operation or a sub-operation ends (00_scope.md R16) and how its result reaches the host
(60_exceptions.md R255, 30_encoding.md R80). -/

namespace Sys2Proof.Machine

/-! The buffers (20_memory.md R53). -/

/-- The byte at index `a`, if any has been written. -/
def Memory.read : Memory → Nat → Option Byte
  | [], _ => none
  | (x, b) :: m, a => if a = x then some b else Memory.read m a

/-- Write one byte, keeping the indexes strictly rising. -/
def Memory.write : Memory → Nat → Byte → Memory
  | [], a, b => [(a, b)]
  | (x, y) :: m, a, b =>
    if a < x then (a, b) :: (x, y) :: m
    else if a = x then (a, b) :: m
    else (x, y) :: Memory.write m a b

/-- Write bytes from index `a` on. -/
def Memory.writeAll : Memory → Nat → List Byte → Memory
  | m, _, [] => m
  | m, a, b :: bs => Memory.writeAll (Memory.write m a b) (a + 1) bs

/-- Read `n` bytes from index `a` on, if all have been written. -/
def Memory.readAll (m : Memory) (a : Nat) : Nat → Option (List Byte)
  | 0 => some []
  | n + 1 =>
    match Memory.read m a, Memory.readAll m (a + 1) n with
    | some b, some bs => some (b :: bs)
    | _, _ => none

/-- The canonical form: indexes strictly rising. An unlisted index has no value, so no listed byte can equal
what an unlisted index reads as. -/
abbrev Memory.wf (m : Memory) : Prop := m.Pairwise (fun x y => x.1 < y.1)

/-! The registers. -/

/-- `SEQ` reaches a label (10_state.md R23). -/
def State.goto (s : State) (q : Seq) : State := { s with seq := q }

/-- `ACC <- v`. -/
def State.withAcc (s : State) (v : Half) : State := { s with acc := v }

/-- `PST <- v`. -/
def State.withPst (s : State) (v : PowerState) : State := { s with pst := v }

/-- `TXBUF[0 .. len(F)-1] <- F; TXLEN <- len(F)` (10_state.md R30). -/
def State.loadTx (s : State) (F : List Byte) : State :=
  { s with txbuf := s.txbuf.writeAll 0 F, txlen := BitVec.ofNat 9 F.length }

/-- `RXBUF[a .. a+len(C)-1] <- C` (10_state.md R31). -/
def State.storeRx (s : State) (a : Nat) (C : List Byte) : State :=
  { s with rxbuf := s.rxbuf.writeAll a C }

/-- `RXBUF` becomes unspecified (43_transport.md R189, log entry 7). -/
def State.forgetRx (s : State) : State := { s with rxbuf := [] }

/-- `TOTAL <- total; CUR <- 0; RETRY <- 0` (43_transport.md R186, step V1). -/
def State.startReceive (s : State) (total : Byte) : State :=
  { s with total := total, cur := 0, retry := 0 }

/-- `CUR <- CUR + n` (43_transport.md R186, step V3). -/
def State.advance (s : State) (n : Nat) : State := { s with cur := s.cur + BitVec.ofNat 8 n }

/-- `RETRY <- RETRY + 1` (43_transport.md R186, step V3). -/
def State.countFailure (s : State) : State := { s with retry := s.retry + 1 }

/-! The transport (43_transport.md R180 to R185). -/

/-- The transport's next answer: the first one listed, or a free value (log entry 4). -/
def State.nextReply (s : State) : BusReply :=
  match s.script with
  | r :: _ => r
  | [] => Config.busReply s.oracle

/-- The next answer has been taken. -/
def State.dropReply (s : State) : State :=
  { s with
    script := s.script.tail
    oracle := if s.script.isEmpty then s.oracle + 1 else s.oracle }

/-- One more event has happened (R185). -/
def State.emit (s : State) (e : Event) : State := { s with trace := s.trace ++ [e] }

/-- What a write is told of an answer: `Ok` or `Err` and nothing else (R181). -/
def writeResultOf : BusReply → WriteResult
  | .ok _ => .ok
  | .err => .err

/-- The state after `BusWrite(addr, B)`: one answer taken, one `Wr` event (R181, R185). -/
def State.afterWrite (s : State) (addr : BusAddr) (B : List Byte) : State :=
  s.dropReply.emit (.wr addr B (writeResultOf s.nextReply))

/-- The state after `BusReadChunk(addr, n)`: one answer taken, one `Rd` event (R182, R185). -/
def State.afterRead (s : State) (addr : BusAddr) (n : Nat) : State :=
  s.dropReply.emit (.rd addr n s.nextReply)

/-- `Delay(t)`: a `Dl` event and nothing else (R184). -/
def State.delay (s : State) (t : Duration) : State := s.emit (.dl t)

/-! How an operation or a sub-operation ends (00_scope.md R16). -/

/-- What an operation leaves: the state, and its value or the error it raised. -/
structure Ran (α : Type) where
  state : State
  result : Except Error α

/-- `return Ok(a)`. -/
def Ran.done {α : Type} (a : α) (s : State) : Ran α := ⟨s, .ok a⟩

/-- TAKING AN ERROR: `raise e`. The state changes made so far stand; the steps after it are not performed (R16,
60_exceptions.md R255). -/
def Ran.raise {α : Type} (e : Error) (s : State) : Ran α := ⟨s, .error e⟩

/-- `PST <- Unknown; raise e`: the end of an operation by a transport-level failure or a failed wake
(10_state.md R26; 60_exceptions.md R241, R242, R245). -/
def Ran.lose {α : Type} (e : Error) (s : State) : Ran α := Ran.raise e (s.withPst .unknown)

/-- The steps after a sub-operation: performed with its value, or not at all when it raised (R16). -/
def Ran.andThen {α β : Type} (r : Ran α) (f : α → State → Ran β) : Ran β :=
  match r.result with
  | .ok a => f a r.state
  | .error e => ⟨r.state, .error e⟩

/-- An operation that can meet the model's one fault. -/
abbrev Run (α : Type) := Except Fault (Ran α)

/-- `Ran.andThen`, where the steps after may meet the fault. -/
def Ran.thenRun {α β : Type} (r : Ran α) (f : α → State → Run β) : Run β :=
  match r.result with
  | .ok a => f a r.state
  | .error e => .ok ⟨r.state, .error e⟩

/-- `Ran.andThen`, where the sub-operation may meet the fault. -/
def Run.andThen {α β : Type} (r : Run α) (f : α → State → Ran β) : Run β :=
  match r with
  | .ok x => .ok (x.andThen f)
  | .error e => .error e

/-! How the result reaches the host. -/

/-- `SEQ <- READY` and one response (30_encoding.md R80, 60_exceptions.md R255). There is no return from an error:
the block is READY again (60_exceptions.md R259). -/
def State.respond (s : State) (r : Response) : State :=
  { s with seq := .ready, responses := s.responses ++ [r] }

/-- The end of an operation: its result is sent. -/
def finish (r : Ran (List Byte)) : Host.Outcome State Fault Refusal :=
  .next (r.state.respond (Response.ofResult r.result))

/-- The end of an operation that can meet the model's one fault. -/
def finishRun : Run (List Byte) → Host.Outcome State Fault Refusal
  | .ok r => finish r
  | .error f => .fault f

/-! Steps that several operations share. -/

/-- One `BusWrite`; on `Err`, `PST <- Unknown; raise TransportError` (steps W1, I1, S1 and E2: 41_power.md R141,
R143, R145; 44_dispatch.md R201). A failed write is never repeated (20_memory.md R63). -/
def send (addr : BusAddr) (B : List Byte) (s : State) : Ran Unit :=
  match writeResultOf s.nextReply with
  | .ok => .done () (s.afterWrite addr B)
  | .err => .lose .transportError (s.afterWrite addr B)

/-- The checksum test of a response of total length `L`, and its payload: `ACC` gets the checksum computed over
all but the last two bytes; when it is not the trailing one, ChecksumMismatch (step E6 of 44_dispatch.md R201;
42_frame_codec.md R164). -/
def checkFrame (L : Nat) (raw : List Byte) (s : State) : Ran (List Byte) :=
  let t := s.withAcc (crc16 (coveredPart raw L))
  if trailer raw L ≠ t.acc then .raise .checksumMismatch t else .done (payloadPart raw L) t

end Sys2Proof.Machine
end

