-- ==== Sys2Proof/Machine/Operands.lean ====
section
/-! DEFINITION. How operands are assembled and tested (30_encoding.md R94 to R98; 42_frame_codec.md R161, R164;
44_dispatch.md R201; 45_zone.md R221). -/

namespace Sys2Proof.Machine

/-- A command payload within the protocol's limit: `len(data) <= MAX_DATA` (42_frame_codec.md R161). -/
abbrev dataFits (p : Params) (data : List Byte) : Prop := data.length ≤ p.maxData.val

/-- A response length that can hold a count byte and a checksum: `expected >= 3` (42_frame_codec.md R164,
44_dispatch.md R203). -/
abbrev expectedFits (expected : Byte) : Prop := rspOverhead ≤ expected.toNat

/-- `READ_LEN_SET` (45_zone.md R221, R222). -/
abbrev readLengthOk (length : Byte) : Prop := length = readLenShort ∨ length = readLenLong

/-- The zone byte with bit 7 replaced by the read-size flag (30_encoding.md R95, 45_zone.md R223). -/
def zoneParam1 (zone length : Byte) : Byte :=
  if length = readLenLong then 1#1 ++ zone.extractLsb' 0 7 else 0#1 ++ zone.extractLsb' 0 7

/-- The expected response length of a zone read (30_encoding.md R97). -/
def zoneExpected (length : Byte) : Byte := length + BitVec.ofNat 8 rspOverhead

/-- The size of the next chunk request: `min(32, TOTAL - CUR)` (43_transport.md R186, 20_memory.md R60). -/
def chunkSize (s : State) : Nat := min chunkMax (s.total.toNat - s.cur.toNat)

end Sys2Proof.Machine
end

