-- ==== Sys2Proof/Machine/Checksum.lean ====
section
/-! DEFINITION. The checksum family: CRC_BEGIN, CRC_UPDATE, CRC_END (40_checksum.md). No errors, no bus activity
(R132). -/

namespace Sys2Proof.Machine

/-- CRC_BEGIN (R124). -/
def execCrcBegin (s : State) : Host.Outcome State Fault Refusal :=
  finish (.done [] (s.withAcc 0x0000))

/-- CRC_UPDATE (R125): it goes on from whatever `ACC` holds. -/
def execCrcUpdate (bytes : List Byte) (s : State) : Host.Outcome State Fault Refusal :=
  finish (.done [] (s.withAcc (crcUpdate s.acc bytes)))

/-- CRC_END (R126): the value is `le16(ACC)`; `ACC` keeps its value. -/
def execCrcEnd (s : State) : Host.Outcome State Fault Refusal :=
  finish (.done (le16 s.acc) s)

end Sys2Proof.Machine
end

