-- ==== Sys2Proof/Machine/Codec.lean ====
section
/-! DEFINITION. The frame codec family: ENCODE, DECODE (42_frame_codec.md). No bus activity, `PST`, `RETRY`, `CUR`
and `TOTAL` unchanged (R166). -/

namespace Sys2Proof.Machine

/-- ENCODE (R161). -/
def execEncode (opcode param1 : Byte) (param2 : Half) (data : List Byte) (s : State) :
    Host.Outcome State Fault Refusal :=
  if ¬ dataFits s.params data then finish (.raise .invalidArgument s)
  else
    let F := encodeFrame opcode param1 param2 data
    finish (.done F ((s.loadTx F).withAcc (trailer F F.length)))

/-- DECODE (R164): the guard, the length test, the checksum test. -/
def execDecode (expected : Byte) (raw : List Byte) (s : State) : Host.Outcome State Fault Refusal :=
  if ¬ expectedFits expected then finish (.raise .invalidArgument s)
  else if raw.length ≠ expected.toNat then finish (.raise .shortResponse s)
  else finish (checkFrame expected.toNat raw s)

end Sys2Proof.Machine
end

