-- ==== Sys2Proof/Machine/Wire.lean ====
section
/-! DEFINITION. The wire patterns of spec/opcode_table.json (30_encoding.md R88, R90, R91). They are no operations
of the block (R102) and no request decodes to one; the meaning of a pattern the block sends is the one bus
write that carries it, and of the pattern it receives what the block makes of such a frame (log entry 10). -/

namespace Sys2Proof.Machine

/-- WIRE_COMMAND_FRAME (R88): the data of one `BusWrite(DEV_ADDR, frame)`. More data than `MAX_DATA` has no
frame (42_frame_codec.md R160). -/
def execWireCommandFrame (opcode param1 : Byte) (param2 : Half) (data : List Byte) (s : State) :
    Host.Outcome State Fault Refusal :=
  if dataFits s.params data then
    .next (s.afterWrite s.params.devAddr (encodeFrame opcode param1 param2 data))
  else .refused .frameTooLong

/-- WIRE_WAKE_PULSE (R90(a)): `BusWrite(WAKE_ADDR, [0x00])`. -/
def execWireWakePulse (s : State) : Host.Outcome State Fault Refusal :=
  .next (s.afterWrite s.params.wakeAddr wakePulse)

/-- WIRE_IDLE_BYTE (R90(b)): `BusWrite(DEV_ADDR, [WA_IDLE])`. -/
def execWireIdleByte (s : State) : Host.Outcome State Fault Refusal :=
  .next (s.afterWrite s.params.devAddr [s.params.waIdle])

/-- WIRE_SLEEP_BYTE (R90(c)): `BusWrite(DEV_ADDR, [WA_SLEEP])`. -/
def execWireSleepByte (s : State) : Host.Outcome State Fault Refusal :=
  .next (s.afterWrite s.params.devAddr [s.params.waSleep])

/-- WIRE_RESPONSE_FRAME (R91): the checksum covers all but the trailing two bytes, a mismatch invalidates the
frame, the payload is returned to the host, the count byte is not checked. -/
def execWireResponseFrame (count : Byte) (payload : List Byte) (checksum : Half) (s : State) :
    Host.Outcome State Fault Refusal :=
  finish (checkFrame (rspOverhead + payload.length) (count :: (payload ++ le16 checksum)) s)

end Sys2Proof.Machine
end

