-- ==== Sys2Proof/Machine/Power.lean ====
section
/-! DEFINITION. The power family: WAKE, IDLE, SLEEP (41_power.md), one function a step label. WAKE and IDLE are
also sub-operations of EXECUTE: `p` says who performs them. -/

namespace Sys2Proof.Machine

/-- Step W5: `PST <- Awake` (R141). -/
def wakeW5 (p : Parent) (s : State) : Ran Unit :=
  .done () ((s.goto (.w5 p)).withPst .awake)

/-- Step W4: the two tests on the first two bytes of the wake response; bytes 2 and 3 are not examined (R141,
R142(b)). -/
def wakeW4 (p : Parent) (c0 c1 : Byte) (s : State) : Ran Unit :=
  let t := (s.goto (.w4 p c0 c1)).withAcc (crcUpdate 0x0000 [c0, c1])
  if c1 ≠ wakeAck ∨ t.acc ≠ wakeCrc then .lose .wakeVerificationFailed t else wakeW5 p t

/-- Step W3: one read of `WAKE_RSP_LEN` = 4 bytes, not retried; a number of bytes other than 4 is a verification
failure (R141, R142(d), R142(e)). -/
def wakeW3 (p : Parent) (s : State) : Ran Unit :=
  let t := (s.goto (.w3 p)).afterRead s.params.devAddr wakeRspLen
  match s.nextReply with
  | .err => .lose .transportError t
  | .ok [c0, c1, c2, c3] => wakeW4 p c0 c1 (t.storeRx 0 [c0, c1, c2, c3])
  | .ok _ => .lose .wakeVerificationFailed t

/-- Step W2: `Delay(T_WHI)` (R141). -/
def wakeW2 (p : Parent) (s : State) : Ran Unit :=
  wakeW3 p ((s.goto (.w2 p)).delay s.params.tWhi)

/-- Step W1, the whole of WAKE: the low-hold pulse, from every state (R141). -/
def wakeW1 (p : Parent) (s : State) : Ran Unit :=
  (send s.params.wakeAddr wakePulse (s.goto (.w1 p))).andThen fun _ t => wakeW2 p t

/-- Step I2: `PST <- Idle` (R143). -/
def idleI2 (p : Parent) (received : List Byte) (s : State) : Ran Unit :=
  .done () ((s.goto (.i2 p received)).withPst .idle)

/-- Step I1, the whole of IDLE: one write, whatever `PST` holds (R143, R144). -/
def idleI1 (p : Parent) (received : List Byte) (s : State) : Ran Unit :=
  (send s.params.devAddr [s.params.waIdle] (s.goto (.i1 p received))).andThen fun _ t =>
    idleI2 p received t

/-- Step S2: `PST <- Sleeping` (R145). -/
def sleepS2 (s : State) : Ran Unit :=
  .done () ((s.goto .s2).withPst .sleeping)

/-- Step S1, the whole of SLEEP: one write, whatever `PST` holds (R145, R146). -/
def sleepS1 (s : State) : Ran Unit :=
  (send s.params.devAddr [s.params.waSleep] (s.goto .s1)).andThen fun _ t => sleepS2 t

/-- An operation without a value returns to the host. -/
def returnUnit (r : Ran Unit) : Ran (List Byte) := r.andThen fun _ t => .done [] t

/-- WAKE (R141). -/
def execWake (s : State) : Host.Outcome State Fault Refusal := finish (returnUnit (wakeW1 .host s))

/-- IDLE (R143). -/
def execIdle (s : State) : Host.Outcome State Fault Refusal := finish (returnUnit (idleI1 .host [] s))

/-- SLEEP (R145). -/
def execSleep (s : State) : Host.Outcome State Fault Refusal := finish (returnUnit (sleepS1 s))

end Sys2Proof.Machine
end

