-- ==== Sys2Proof/Machine/Transport.lean ====
section
/-! DEFINITION. The transport family: RECEIVE, the chunked-retry receive (43_transport.md R186 to R192), one
function a step label; also step E4 of EXECUTE. -/

namespace Sys2Proof.Machine

/-- Step V3, the failed read: `RETRY <- RETRY + 1`; at 20, `PST <- Unknown`, `RXBUF` unspecified,
ReceiveExhausted (R186, R187, R189). -/
def receiveFailed (s : State) : Ran Unit :=
  let t := s.countFailure
  if t.retry = retryMax then .lose .receiveExhausted t.forgetRx else .done () t

/-- Step V3: a chunk of 1 to `n` bytes is stored and counted; anything else is a failed read (R186, R190). -/
def receiveV3 (p : Parent) (r : BusReply) (s : State) : Ran Unit :=
  let t := s.goto (.v3 p r)
  match r with
  | .ok C =>
    if 1 ≤ C.length ∧ C.length ≤ chunkSize s then
      .done () ((t.storeRx t.cur.toNat C).advance C.length)
    else receiveFailed t
  | .err => receiveFailed t

/-- Steps V2 and V3, the loop, at most `fuel` passes. The fuel that `receiveV2` gives is never used up (log entry
13). -/
def receiveLoop : Nat → Parent → State → Ran Unit
  | 0, _, s => .lose .receiveExhausted s
  | fuel + 1, p, s =>
    let t := s.goto (.v2 p)
    if t.cur < t.total then
      (receiveV3 p t.nextReply (t.afterRead t.params.devAddr (chunkSize t))).andThen fun _ u =>
        receiveLoop fuel p u
    else .done () t

/-- More passes than the loop can make: each raises `CUR`, which stays at most `TOTAL`, or counts `RETRY`, five
bits, on towards 20 (R188). -/
def receiveFuel (s : State) : Nat := s.total.toNat + 34

/-- Step V4: `return Ok(RXBUF[0 .. TOTAL-1])` (R186). -/
def receiveV4 (p : Parent) (s : State) : Run (List Byte) :=
  match s.rxbuf.readAll 0 s.total.toNat with
  | some bytes => .ok (.done bytes (s.goto (.v4 p)))
  | none => .error .unspecifiedBuffer

/-- Step V2 to the end (R186). -/
def receiveV2 (p : Parent) (s : State) : Run (List Byte) :=
  (receiveLoop (receiveFuel s) p s).thenRun fun _ t => receiveV4 p t

/-- Step V1, the whole of RECEIVE (R186). -/
def receiveV1 (p : Parent) (total : Byte) (s : State) : Run (List Byte) :=
  receiveV2 p ((s.goto (.v1 p total)).startReceive total)

/-- RECEIVE (R186). -/
def execReceive (total : Byte) (s : State) : Host.Outcome State Fault Refusal :=
  finishRun (receiveV1 .host total s)

end Sys2Proof.Machine
end

