-- ==== Sys2Proof/Machine/Execute.lean ====
section
/-! DEFINITION. The dispatch family: EXECUTE, one command cycle (44_dispatch.md R200 to R210), one function a step
label; also step Z3 of ZONE_READ, whose step Z4 only passes the payload on (45_zone.md R221). -/

namespace Sys2Proof.Machine

/-- The end of a cycle: to the host, or through step Z4 of ZONE_READ, which returns the payload (45_zone.md
R221). -/
def returnPayload (c : Command) (payload : List Byte) (s : State) : Ran (List Byte) :=
  match c.origin with
  | .request => .done payload s
  | .zoneRead => .done payload (s.goto (.z4 payload))

/-- Step E6: validate the response and return its payload (R201). -/
def executeE6 (c : Command) (received : List Byte) (s : State) : Ran (List Byte) :=
  (checkFrame c.expected.toNat received (s.goto (.e6 c received))).andThen (returnPayload c)

/-- After the idle of step E5. -/
def afterIdle (c : Command) (received : List Byte) (r : Ran Unit) : Ran (List Byte) :=
  r.andThen fun _ t => executeE6 c received t

/-- Step E5: IDLE, before the validation; its failure ends the cycle (R201, R204). -/
def executeE5 (c : Command) (received : List Byte) (s : State) : Ran (List Byte) :=
  afterIdle c received (idleI1 (.execute c) received (s.goto (.e5 c received)))

/-- After the receive of step E4, or back to the host. -/
def afterReceive (p : Parent) (r : Run (List Byte)) : Run (List Byte) :=
  match p with
  | .host => r
  | .execute c => r.andThen (executeE5 c)

/-- Step E4: RECEIVE `expected` (R201). -/
def executeE4 (c : Command) (s : State) : Run (List Byte) :=
  afterReceive (.execute c) (receiveV1 (.execute c) c.expected (s.goto (.e4 c)))

/-- Step E3: `Delay(EXEC_DELAY(opcode))` (R201, R206). -/
def executeE3 (c : Command) (s : State) : Run (List Byte) :=
  executeE4 c ((s.goto (.e3 c)).delay (execDelayOf s.params c.opcode))

/-- The command frame of a cycle (R201, step E2). -/
def commandFrame (c : Command) : List Byte := encodeFrame c.opcode c.param1 c.param2 c.data

/-- Step E2: build the frame and send it (R201). -/
def executeE2 (c : Command) (s : State) : Run (List Byte) :=
  let F := commandFrame c
  (send s.params.devAddr F (((s.goto (.e2 c)).loadTx F).withAcc (trailer F F.length))).thenRun
    fun _ t => executeE3 c t

/-- After the wake of step E1, or back to the host. -/
def afterWake (p : Parent) (r : Ran Unit) : Run (List Byte) :=
  match p with
  | .host => .ok (returnUnit r)
  | .execute c => r.thenRun fun _ t => executeE2 c t

/-- Step E1: WAKE, unconditionally (R201). -/
def executeE1 (c : Command) (s : State) : Run (List Byte) :=
  afterWake (.execute c) (wakeW1 (.execute c) (s.goto (.e1 c)))

/-- Step E0, the whole cycle: the argument test comes before any bus activity (R201, R203). -/
def executeE0 (c : Command) (s : State) : Run (List Byte) :=
  if ¬ dataFits s.params c.data ∨ ¬ expectedFits c.expected then .ok (.raise .invalidArgument s)
  else executeE1 c (s.goto (.e0 c))

/-- EXECUTE (R201). -/
def execExecute (opcode param1 : Byte) (param2 : Half) (expected : Byte) (data : List Byte) (s : State) :
    Host.Outcome State Fault Refusal :=
  finishRun (executeE0 ⟨opcode, param1, param2, data, expected, .request⟩ s)

end Sys2Proof.Machine
end

