-- ==== Sys2Proof/Machine/Zone.lean ====
section
/-! DEFINITION. The zone family: ZONE_READ, ZONE_WRITE (45_zone.md). -/

namespace Sys2Proof.Machine

/-- The command of a zone read: the read opcode, the zone byte with its size flag, the address unmodified, no
data, `length + 3` (R221, R224). -/
def zoneCommand (p : Params) (param1 : Byte) (address : Half) (length : Byte) : Command :=
  ⟨p.opRead, param1, address, [], zoneExpected length, .zoneRead⟩

/-- Step Z3: the command cycle; step Z4 is `returnPayload` (R221). -/
def zoneReadZ3 (param1 : Byte) (address : Half) (length : Byte) (s : State) : Run (List Byte) :=
  executeE0 (zoneCommand s.params param1 address length) (s.goto (.z3 param1 address length))

/-- Step Z2: the read-size flag (R221, R223). -/
def zoneReadZ2 (zone : Byte) (address : Half) (length : Byte) (s : State) : Run (List Byte) :=
  zoneReadZ3 (zoneParam1 zone length) address length (s.goto (.z2 zone address length))

/-- Step Z1: the length test, before everything else (R221, R222). -/
def zoneReadZ1 (zone : Byte) (address : Half) (length : Byte) (s : State) : Run (List Byte) :=
  if ¬ readLengthOk length then .ok (.raise .invalidArgument s)
  else zoneReadZ2 zone address length (s.goto (.z1 zone address length))

/-- ZONE_READ (R221). -/
def execZoneRead (zone : Byte) (address : Half) (length : Byte) (s : State) :
    Host.Outcome State Fault Refusal :=
  finishRun (zoneReadZ1 zone address length s)

/-- ZONE_WRITE (R226): the result Unimplemented, no bus activity, no state change, whatever the operands (log
entry 12). -/
def execZoneWrite (_zone : Byte) (_address : Half) (_length : Byte) (_buffer : List Byte) (s : State) :
    Host.Outcome State Fault Refusal :=
  finish (.raise .unimplemented s)

end Sys2Proof.Machine
end

