-- ==== Sys2Proof/Syntax.lean ====
section
/-! DEFINITION. The syntax: one constructor for every row of spec/opcode_table.json, with the operands the row
lists. The first twelve are the operations of 30_encoding.md R102; the last five are the wire patterns of
30_encoding.md R88, R90 and R91 (log entry 10). -/

namespace Sys2Proof

inductive Instr where
  /-- CRC_BEGIN, format H0 (R81, R124). -/
  | crcBegin
  /-- CRC_UPDATE, format H1 (R82, R125). -/
  | crcUpdate (bytes : List Byte)
  /-- CRC_END, format H0 (R81, R126). -/
  | crcEnd
  /-- WAKE, format H0 (R81, R141). -/
  | wake
  /-- IDLE, format H0 (R81, R143). -/
  | idle
  /-- SLEEP, format H0 (R81, R145). -/
  | sleep
  /-- ENCODE, format HE (R83, R161). -/
  | encode (opcode param1 : Byte) (param2 : Half) (data : List Byte)
  /-- DECODE, format HD (R84, R164). -/
  | decode (expected : Byte) (raw : List Byte)
  /-- RECEIVE, format HR (R85, R186). -/
  | receive (total : Byte)
  /-- EXECUTE, format HX (R86, R201). -/
  | execute (opcode param1 : Byte) (param2 : Half) (expected : Byte) (data : List Byte)
  /-- ZONE_READ, format HZ (R87, R221). -/
  | zoneRead (zone : Byte) (address : Half) (length : Byte)
  /-- ZONE_WRITE, format HW (R87, R226). -/
  | zoneWrite (zone : Byte) (address : Half) (length : Byte) (buffer : List Byte)
  /-- WIRE_COMMAND_FRAME, sent (R88). -/
  | wireCommandFrame (opcode param1 : Byte) (param2 : Half) (data : List Byte)
  /-- WIRE_WAKE_PULSE, sent (R90(a)). -/
  | wireWakePulse
  /-- WIRE_IDLE_BYTE, sent (R90(b)). -/
  | wireIdleByte
  /-- WIRE_SLEEP_BYTE, sent (R90(c)). -/
  | wireSleepByte
  /-- WIRE_RESPONSE_FRAME, received (R91). -/
  | wireResponseFrame (count : Byte) (payload : List Byte) (checksum : Half)
  deriving DecidableEq, Repr

end Sys2Proof
end

