-- ==== Sys2Proof/Machine/Dispatch.lean ====
section
/-! DEFINITION. The dispatch: one arm per instruction. -/

namespace Sys2Proof.Machine

-- The operations of 30_encoding.md R102, then the wire patterns of R88, R90 and R91.
def exec (i : Instr) (s : State) : Host.Outcome State Fault Refusal :=
  match i with
  | .crcBegin => Sys2Proof.Machine.execCrcBegin s
  | .crcUpdate bytes => Sys2Proof.Machine.execCrcUpdate bytes s
  | .crcEnd => Sys2Proof.Machine.execCrcEnd s
  | .wake => Sys2Proof.Machine.execWake s
  | .idle => Sys2Proof.Machine.execIdle s
  | .sleep => Sys2Proof.Machine.execSleep s
  | .encode opcode param1 param2 data => Sys2Proof.Machine.execEncode opcode param1 param2 data s
  | .decode expected raw => Sys2Proof.Machine.execDecode expected raw s
  | .receive total => Sys2Proof.Machine.execReceive total s
  | .execute opcode param1 param2 expected data => Sys2Proof.Machine.execExecute opcode param1 param2 expected data s
  | .zoneRead zone address length => Sys2Proof.Machine.execZoneRead zone address length s
  | .zoneWrite zone address length buffer => Sys2Proof.Machine.execZoneWrite zone address length buffer s
  | .wireCommandFrame opcode param1 param2 data => Sys2Proof.Machine.execWireCommandFrame opcode param1 param2 data s
  | .wireWakePulse => Sys2Proof.Machine.execWireWakePulse s
  | .wireIdleByte => Sys2Proof.Machine.execWireIdleByte s
  | .wireSleepByte => Sys2Proof.Machine.execWireSleepByte s
  | .wireResponseFrame count payload checksum => Sys2Proof.Machine.execWireResponseFrame count payload checksum s

end Sys2Proof.Machine
end

