-- ==== Sys2Proof/WellFormed.lean ====
section
/-! DEFINITION. Which instructions have an encoding: the operand lengths that the formats of 30_encoding.md
can carry. -/

namespace Sys2Proof

/-- A byte-string operand announced by a one-byte length (R80) has at most 255 bytes; ZONE_WRITE's buffer has
exactly `length` bytes (R87); a command frame's length byte bounds its data at 248 (R89); a response frame
has at most 255 bytes, three of them count byte and checksum (R91, R92). -/
abbrev WellFormed : Instr → Prop
  | .crcBegin => True
  | .crcUpdate bytes => bytes.length ≤ 255
  | .crcEnd => True
  | .wake => True
  | .idle => True
  | .sleep => True
  | .encode _ _ _ data => data.length ≤ 255
  | .decode _ raw => raw.length ≤ 255
  | .receive _ => True
  | .execute _ _ _ _ data => data.length ≤ 255
  | .zoneRead _ _ _ => True
  | .zoneWrite _ _ length buffer => buffer.length = length.toNat
  | .wireCommandFrame _ _ _ data => data.length ≤ 248
  | .wireWakePulse => True
  | .wireIdleByte => True
  | .wireSleepByte => True
  | .wireResponseFrame _ payload _ => payload.length ≤ 252

end Sys2Proof
end

