-- ==== Sys2Proof/Decode.lean ====
section
/-! DEFINITION. Decoding and encoding: host request packets (30_encoding.md R80 to R87, R104 to R106) and the
byte sequences of the wire (30_encoding.md R88, R90, R91). -/

namespace Sys2Proof

open Sys2Proof.Machine

/-- Why a byte sequence is no instruction. -/
inductive DecodeError where
  /-- The empty request (R106). -/
  | empty
  /-- A selector that is none of the twelve (R105). -/
  | reservedSelector (sel : Byte)
  /-- A length other than the format's (R106). -/
  | badLength
  /-- Bytes that are none of the patterns the block sends at that address (R108). -/
  | notAWirePattern
  deriving DecidableEq, Repr

/-- Format H0: no operand byte may follow (R81). -/
def decodeH0 (i : Instr) : List Byte → Except DecodeError Instr
  | [] => .ok i
  | _ :: _ => .error .badLength

/-- The bytes after a one-byte length `n`: exactly `n` of them (R80). -/
def decodeCounted (n : Byte) (rest : List Byte) (f : List Byte → Instr) : Except DecodeError Instr :=
  if rest.length = n.toNat then .ok (f rest) else .error .badLength

/-- Format H1 (R82). -/
def decodeH1 : List Byte → Except DecodeError Instr
  | n :: bytes => decodeCounted n bytes .crcUpdate
  | _ => .error .badLength

/-- Format HE (R83). -/
def decodeHE : List Byte → Except DecodeError Instr
  | opcode :: param1 :: lo :: hi :: n :: data =>
    decodeCounted n data (.encode opcode param1 (fromLe16 lo hi))
  | _ => .error .badLength

/-- Format HD (R84). -/
def decodeHD : List Byte → Except DecodeError Instr
  | expected :: n :: raw => decodeCounted n raw (.decode expected)
  | _ => .error .badLength

/-- Format HR (R85). -/
def decodeHR : List Byte → Except DecodeError Instr
  | [total] => .ok (.receive total)
  | _ => .error .badLength

/-- Format HX (R86). -/
def decodeHX : List Byte → Except DecodeError Instr
  | opcode :: param1 :: lo :: hi :: expected :: n :: data =>
    decodeCounted n data (.execute opcode param1 (fromLe16 lo hi) expected)
  | _ => .error .badLength

/-- Format HZ (R87). -/
def decodeHZ : List Byte → Except DecodeError Instr
  | [zone, lo, hi, length] => .ok (.zoneRead zone (fromLe16 lo hi) length)
  | _ => .error .badLength

/-- Format HW (R87). -/
def decodeHW : List Byte → Except DecodeError Instr
  | zone :: lo :: hi :: length :: buffer =>
    decodeCounted length buffer (.zoneWrite zone (fromLe16 lo hi) length)
  | _ => .error .badLength

/-- A host request (R80, R102, R104): the selector is the whole of the first byte; the length must be exactly
the format's. -/
def decode : List Byte → Except DecodeError Instr
  | [] => .error .empty
  | sel :: operands =>
    if sel = 0x10 then decodeH0 .crcBegin operands
    else if sel = 0x11 then decodeH1 operands
    else if sel = 0x12 then decodeH0 .crcEnd operands
    else if sel = 0x20 then decodeH0 .wake operands
    else if sel = 0x21 then decodeH0 .idle operands
    else if sel = 0x22 then decodeH0 .sleep operands
    else if sel = 0x30 then decodeHE operands
    else if sel = 0x31 then decodeHD operands
    else if sel = 0x40 then decodeHR operands
    else if sel = 0x50 then decodeHX operands
    else if sel = 0x60 then decodeHZ operands
    else if sel = 0x61 then decodeHW operands
    else .error (.reservedSelector sel)

/-- Where a byte sequence stands, which decides how it is read (spec/opcode_table.json, match_applies_to): at
the host port, as the data of a write to `WAKE_ADDR` or to `DEV_ADDR`, or as a response read from the device
whose total length the request has fixed (R92). -/
inductive Channel where
  | hostPort
  | wakeWrite
  | deviceWrite
  | deviceRead (total : Nat)
  deriving DecidableEq, Repr

/-- The data of a write to `WAKE_ADDR`: the wake pulse and nothing else (R90(a)). -/
def decodeWakeWrite (B : List Byte) : Except DecodeError Instr :=
  if B = wakePulse then .ok .wireWakePulse else .error .notAWirePattern

/-- A command frame after its word marker, as the block sends it (R88): the length byte counts itself and all
that follows it, and the last two bytes are the checksum of what stands before them. -/
def decodeFrameBody : List Byte → Except DecodeError Instr
  | len :: opcode :: param1 :: lo :: hi :: rest =>
    let n := rest.length - 2
    let i := Instr.wireCommandFrame opcode param1 (fromLe16 lo hi) (rest.take n)
    if 2 ≤ rest.length ∧ len.toNat = cmdOverhead + n ∧
        rest.drop n = le16 (crc16 (len :: opcode :: param1 :: lo :: hi :: rest.take n))
    then .ok i else .error .notAWirePattern
  | _ => .error .notAWirePattern

/-- The data of a write to `DEV_ADDR` (R108): a mode byte by itself, or a command frame. Where `WA_IDLE` and
`WA_SLEEP` are one value, the byte is read as the idle byte (log entry 10). -/
def decodeDeviceWrite (p : Params) : List Byte → Except DecodeError Instr
  | [b] =>
    if b = p.waIdle then .ok .wireIdleByte
    else if b = p.waSleep then .ok .wireSleepByte
    else .error .notAWirePattern
  | marker :: body => if marker = wordMarker then decodeFrameBody body else .error .notAWirePattern
  | [] => .error .notAWirePattern

/-- A response of total length `L` (R91): no byte identifies it and none is checked here. -/
def decodeDeviceRead (L : Nat) (raw : List Byte) : Except DecodeError Instr :=
  if raw.length ≠ L then .error .badLength
  else match raw with
    | count :: rest =>
      if 2 ≤ rest.length then
        .ok (.wireResponseFrame count (rest.take (rest.length - 2)) (trailer raw L))
      else .error .badLength
    | [] => .error .badLength

/-- The instruction a byte sequence is, where it stands. -/
def decodeOn (p : Params) : Channel → List Byte → Except DecodeError Instr
  | .hostPort, B => decode B
  | .wakeWrite, B => decodeWakeWrite B
  | .deviceWrite, B => decodeDeviceWrite p B
  | .deviceRead L, B => decodeDeviceRead L B

/-- Where an instruction's bytes stand. -/
def channelOf : Instr → Channel
  | .wireCommandFrame _ _ _ _ => .deviceWrite
  | .wireWakePulse => .wakeWrite
  | .wireIdleByte => .deviceWrite
  | .wireSleepByte => .deviceWrite
  | .wireResponseFrame _ payload _ => .deviceRead (rspOverhead + payload.length)
  | _ => .hostPort

/-- A one-byte length (R80). -/
def lengthByte (B : List Byte) : Byte := BitVec.ofNat 8 B.length

/-- The bytes of a well-formed instruction (R81 to R88, R90, R91). -/
def encode (p : Params) : Instr → List Byte
  | .crcBegin => [0x10]
  | .crcUpdate bytes => 0x11 :: lengthByte bytes :: bytes
  | .crcEnd => [0x12]
  | .wake => [0x20]
  | .idle => [0x21]
  | .sleep => [0x22]
  | .encode opcode param1 param2 data =>
    0x30 :: opcode :: param1 :: (le16 param2 ++ lengthByte data :: data)
  | .decode expected raw => 0x31 :: expected :: lengthByte raw :: raw
  | .receive total => [0x40, total]
  | .execute opcode param1 param2 expected data =>
    0x50 :: opcode :: param1 :: (le16 param2 ++ expected :: lengthByte data :: data)
  | .zoneRead zone address length => 0x60 :: zone :: (le16 address ++ [length])
  | .zoneWrite zone address length buffer => 0x61 :: zone :: (le16 address ++ length :: buffer)
  | .wireCommandFrame opcode param1 param2 data => encodeFrame opcode param1 param2 data
  | .wireWakePulse => wakePulse
  | .wireIdleByte => [p.waIdle]
  | .wireSleepByte => [p.waSleep]
  | .wireResponseFrame count payload checksum => count :: (payload ++ le16 checksum)

/-- The length the format gives a request that begins with the bytes `Q`, further bytes being 0
(30_encoding.md section 2); for a reserved selector, what `Q` has. -/
def requestLength (Q : List Byte) : Nat :=
  let sel := Q.getD 0 0
  if sel = 0x10 ∨ sel = 0x12 ∨ sel = 0x20 ∨ sel = 0x21 ∨ sel = 0x22 then 1
  else if sel = 0x11 then 2 + (Q.getD 1 0).toNat
  else if sel = 0x30 then 6 + (Q.getD 5 0).toNat
  else if sel = 0x31 then 3 + (Q.getD 2 0).toNat
  else if sel = 0x40 then 2
  else if sel = 0x50 then 7 + (Q.getD 6 0).toNat
  else if sel = 0x60 then 5
  else if sel = 0x61 then 5 + (Q.getD 4 0).toNat
  else Q.length

/-- The first `k` bytes of `w`, the least significant first. -/
def lowBytes (w : Nat) : Nat → List Byte
  | 0 => []
  | k + 1 => BitVec.ofNat 8 w :: lowBytes (w / 256) k

/-- The request packet whose first `nbits` bits are `w`, as spec/opcode_table.json numbers them (bit 0 is the
least significant bit of the first byte), with zero bytes up to the length its format asks for. -/
def tableRequest (nbits w : Nat) : List Byte :=
  let Q := lowBytes (w % 2 ^ nbits) ((nbits + 7) / 8)
  Q ++ List.replicate (requestLength Q - Q.length) 0

/-- The instruction the decoder of host requests reads from `tableRequest nbits w`. The wire rows of the table
are no host requests (R105): for their words there is none. -/
def decodeTableWord (nbits w : Nat) : Option Instr :=
  match decode (tableRequest nbits w) with
  | .ok i => some i
  | .error _ => none

end Sys2Proof
end

