-- ==== Sys2Proof/Machine/Sequencer.lean ====
section
/-! DEFINITION. The host port (30_encoding.md R80, R105, R106) and the sequencer (10_state.md R23): how a request is
taken and refused, and how a running operation goes on from the label it has reached. -/

namespace Sys2Proof.Machine

/-- The request at the head of the host's list has been taken (20_memory.md R66(c)). -/
def State.takeRequest (s : State) : State := { s with requests := s.requests.tail }

/-- A reserved selector or a malformed packet: InvalidArgument, no bus activity, no state change (30_encoding.md
R105, R106). -/
def rejectRequest (s : State) : Host.Outcome State Fault Refusal :=
  finish (.raise .invalidArgument s)

/-- After IDLE: back to the host, or step E6 of the cycle. -/
def returnIdle (p : Parent) (received : List Byte) (r : Ran Unit) : Ran (List Byte) :=
  match p with
  | .host => returnUnit r
  | .execute c => afterIdle c received r

/-- The rest of the operation in progress, from the label `SEQ` holds to its result (10_state.md R23: nothing
but the operation's own steps changes `SEQ`). With no operation in progress nothing happens (20_memory.md
R68). -/
def resume (s : State) : Host.Outcome State Fault Refusal :=
  match s.seq with
  | .ready => .next s
  | .w1 p => finishRun (afterWake p (wakeW1 p s))
  | .w2 p => finishRun (afterWake p (wakeW2 p s))
  | .w3 p => finishRun (afterWake p (wakeW3 p s))
  | .w4 p c0 c1 => finishRun (afterWake p (wakeW4 p c0 c1 s))
  | .w5 p => finishRun (afterWake p (wakeW5 p s))
  | .i1 p received => finish (returnIdle p received (idleI1 p received s))
  | .i2 p received => finish (returnIdle p received (idleI2 p received s))
  | .s1 => finish (returnUnit (sleepS1 s))
  | .s2 => finish (returnUnit (sleepS2 s))
  | .v1 p total => finishRun (afterReceive p (receiveV1 p total s))
  | .v2 p => finishRun (afterReceive p (receiveV2 p s))
  | .v3 p r => finishRun (afterReceive p ((receiveV3 p r s).thenRun fun _ t => receiveV2 p t))
  | .v4 p => finishRun (afterReceive p (receiveV4 p s))
  | .e0 c => finishRun (executeE0 c s)
  | .e1 c => finishRun (executeE1 c s)
  | .e2 c => finishRun (executeE2 c s)
  | .e3 c => finishRun (executeE3 c s)
  | .e4 c => finishRun (executeE4 c s)
  | .e5 c received => finish (executeE5 c received s)
  | .e6 c received => finish (executeE6 c received s)
  | .z1 zone address length => finishRun (zoneReadZ1 zone address length s)
  | .z2 zone address length => finishRun (zoneReadZ2 zone address length s)
  | .z3 param1 address length => finishRun (zoneReadZ3 param1 address length s)
  | .z4 payload => finish (.done payload s)

/-- A host that presents `Q` to a READY block (log entry 2). -/
def State.present (s : State) (Q : List Byte) : State :=
  { s with seq := .ready, requests := Q :: s.requests }

end Sys2Proof.Machine
end

