-- ==== Sys2Proof/Machine/Step.lean ====
section
/-! DEFINITION. One step of the block: with `SEQ` READY, the next request is taken and its whole operation runs
from request to response; with an operation in progress, that operation runs to its end and no request is taken
(10_state.md R23; 20_memory.md R66; 70_reset_and_hazards.md R293; log entries 1 and 2). -/

namespace Sys2Proof.Machine

/-- One step. With READY and no request nothing happens: the block waits (70_reset_and_hazards.md R281). -/
def step (s : State) : Host.Outcome State Fault Refusal :=
  match s.seq with
  | .ready =>
    match s.requests with
    | [] => .next s
    | Q :: _ =>
      match decode Q with
      | .ok i => exec i s.takeRequest
      | .error _ => rejectRequest s.takeRequest
  | _ => resume s

/-- `s` with the request packet of a word of spec/opcode_table.json presented next (log entry 2). -/
def State.withFetchWord (s : State) (nbits w : Nat) : State := s.present (tableRequest nbits w)

end Sys2Proof.Machine
end

