-- ==== Sys2Proof/Safety.lean ====
section
/-! DEFINITION. The terms the statements use: what counts as a state a run can be in, runs of several operations,
what an operation leaves alone, the results an operation may end with, and the chunked receive described on the
list of the transport's answers alone. -/

namespace Sys2Proof.Machine

/-! What a run can be in. -/

/-- Every index listed in a buffer lies below `n`. -/
abbrev Memory.below (m : Memory) (n : Nat) : Prop := ∀ x ∈ m, x.1 < n

/-- `RXBUF[0 .. CUR-1]` has been written (10_state.md R31). -/
abbrev State.rxFilled (s : State) : Prop := ∀ a < s.cur.toNat, (s.rxbuf.read a).isSome = true

/-- A command cycle in progress has passed the test of step E0 (44_dispatch.md R201). -/
abbrev Command.fits (p : Params) (c : Command) : Prop := dataFits p c.data ∧ expectedFits c.expected

/-- The cycle a sub-operation belongs to, if any, has passed the test of step E0. -/
abbrev Parent.fits (p : Params) : Parent → Prop
  | .host => True
  | .execute c => c.fits p

/-- The cycle in progress, if there is one, has passed the test of step E0. -/
abbrev Seq.fits (p : Params) : Seq → Prop
  | .w1 q | .w2 q | .w3 q | .w4 q _ _ | .w5 q | .i1 q _ | .i2 q _ | .v1 q _ | .v2 q | .v3 q _ | .v4 q => q.fits p
  | .e1 c | .e2 c | .e3 c | .e4 c | .e5 c _ | .e6 c _ => c.fits p
  | .ready | .s1 | .s2 | .e0 _ | .z1 _ _ _ | .z2 _ _ _ | .z3 _ _ _ | .z4 _ => True

/-- What holds in the middle of a receive: below the bound of failed reads, and the bytes up to the cursor
written; at step V4 the cursor has reached `TOTAL` (43_transport.md R186). -/
abbrev State.receiving (s : State) : Prop :=
  match s.seq with
  | .v2 _ => s.retry.toNat < 20 ∧ s.rxFilled
  | .v3 _ _ => s.retry.toNat < 20 ∧ s.rxFilled
  | .v4 _ => s.cur = s.total ∧ s.rxFilled
  | _ => True

/-- The invariant of the block: the buffers in canonical form and within their capacities (10_state.md R30, R31),
`RETRY` at most 20 (R27), `CUR` at most `TOTAL` (R28), `TXLEN` at most `TX_MAX` (R30), and the operation in
progress, if there is one, in a state its own steps lead to. -/
structure State.Inv (s : State) : Prop where
  txWf : s.txbuf.wf
  txBelow : s.txbuf.below (txMax s.params)
  rxWf : s.rxbuf.wf
  rxBelow : s.rxbuf.below rxMax
  retryLe : s.retry.toNat ≤ 20
  curLe : s.cur.toNat ≤ s.total.toNat
  txlenLe : s.txlen.toNat ≤ txMax s.params
  seqFits : s.seq.fits s.params
  receiving : s.receiving

/-! Runs of several operations. -/

/-- The operations of a list, one after the other, stopping at the first that gives no next state. -/
def runAll : List Instr → State → Host.Outcome State Fault Refusal
  | [], s => .next s
  | i :: is, s =>
    match exec i s with
    | .next t => runAll is t
    | o => o

/-- What follows an operation that ended Ok, begun with the responses of `s`: the rest `f` of a larger operation,
given the value and the state without the response. Another ending is the ending of the whole
(00_scope.md R16). -/
def onOk (s : State) (o : Host.Outcome State Fault Refusal)
    (f : List Byte → State → Host.Outcome State Fault Refusal) : Host.Outcome State Fault Refusal :=
  match o with
  | .next t =>
    match t.responses.getLast? with
    | some (.ok v) => f v { t with responses := s.responses }
    | _ => .next t
  | o => o

/-- The command cycle written with the operations it performs: WAKE, the frame write and the delay, RECEIVE, IDLE,
and DECODE of what was received (44_dispatch.md R201). -/
def cycleOf (opcode param1 : Byte) (param2 : Half) (expected : Byte) (data : List Byte) (s : State) :
    Host.Outcome State Fault Refusal :=
  onOk s (exec .wake s) fun _ u =>
    let F := encodeFrame opcode param1 param2 data
    let v : State := { u with
      txbuf := u.txbuf.writeAll 0 F, txlen := BitVec.ofNat 9 F.length, acc := trailer F F.length }
    let sent (r : WriteResult) : State := { v.dropReply with trace := v.trace ++ [.wr s.params.devAddr F r] }
    match v.nextReply with
    | .err => .next { sent .err with
        pst := .unknown, seq := .ready, responses := s.responses ++ [.error .transportError] }
    | .ok _ =>
      let w : State := { sent .ok with
        trace := (sent .ok).trace ++ [.dl (execDelayOf s.params opcode)] }
      onOk s (exec (.receive expected) w) fun R x =>
        onOk s (exec .idle x) fun _ y => exec (.decode expected R) y

/-! What an operation leaves alone. -/

/-- `RETRY`, `CUR` and `TOTAL` are unchanged. -/
abbrev keepsCounters (s t : State) : Prop := t.retry = s.retry ∧ t.cur = s.cur ∧ t.total = s.total

/-- `TXLEN` and every byte of `TXBUF` are unchanged. -/
abbrev keepsTx (s t : State) : Prop := t.txlen = s.txlen ∧ ∀ a, t.txbuf.read a = s.txbuf.read a

/-- Every byte of `RXBUF` is unchanged. -/
abbrev keepsRx (s t : State) : Prop := ∀ a, t.rxbuf.read a = s.rxbuf.read a

/-- Nothing happened on the bus: no event, no answer of the transport taken. -/
abbrev keepsBus (s t : State) : Prop := t.trace = s.trace ∧ t.script = s.script ∧ t.oracle = s.oracle

/-- The transport's answers still to come are those of `u`. -/
abbrev repliesLeft (u t : State) : Prop := t.script = u.script ∧ t.oracle = u.oracle

/-- `RXBUF` holds the bytes `C` from index 0 on, and beyond them what it held before. -/
abbrev rxHolds (s t : State) (C : List Byte) : Prop :=
  ∀ a, t.rxbuf.read a = if a < C.length then C[a]? else s.rxbuf.read a

/-- `TXBUF` holds the frame `F` from index 0 on, and beyond it what it held before; `TXLEN` is its length. -/
abbrev txHolds (s t : State) (F : List Byte) : Prop :=
  t.txlen.toNat = F.length ∧ ∀ a, t.txbuf.read a = if a < F.length then F[a]? else s.txbuf.read a

/-- The parameters and the host's pending requests are unchanged. -/
abbrev keepsHost (s t : State) : Prop := t.params = s.params ∧ t.requests = s.requests

/-- The operation has ended with the result `r`: one response, and READY (30_encoding.md R80). -/
abbrev endsWith (s t : State) (r : Response) : Prop := t.responses = s.responses ++ [r] ∧ t.seq = .ready

/-! Results. -/

/-- One of the twelve operations of 30_encoding.md R102. -/
def isOperation (i : Instr) : Bool := channelOf i == .hostPort

/-- The error results an operation may end with, once its request is well formed (60_exceptions.md R249). -/
def mayRaise : Instr → List Error
  | .wake => [.transportError, .wakeVerificationFailed]
  | .idle => [.transportError]
  | .sleep => [.transportError]
  | .encode _ _ _ _ => [.invalidArgument]
  | .decode _ _ => [.checksumMismatch, .shortResponse, .invalidArgument]
  | .receive _ => [.receiveExhausted]
  | .execute _ _ _ _ _ =>
    [.transportError, .wakeVerificationFailed, .checksumMismatch, .receiveExhausted, .invalidArgument]
  | .zoneRead _ _ _ =>
    [.transportError, .wakeVerificationFailed, .checksumMismatch, .receiveExhausted, .invalidArgument]
  | .zoneWrite _ _ _ _ => [.unimplemented]
  | _ => []

/-- Whether an operation may end with Ok (60_exceptions.md R249): every one but ZONE_WRITE. -/
def mayReturn : Instr → Bool
  | .zoneWrite _ _ _ _ => false
  | i => isOperation i

/-- A byte sequence the block may hand to `BusWrite` at an address (30_encoding.md R88, R90, R108). -/
def sentPattern (p : Params) (addr : BusAddr) (B : List Byte) : Prop :=
  (addr = p.wakeAddr ∧ B = wakePulse) ∨
  (addr = p.devAddr ∧ B = [p.waIdle]) ∨
  (addr = p.devAddr ∧ B = [p.waSleep]) ∨
  (addr = p.devAddr ∧ ∃ opcode param1 param2 data,
    dataFits p data ∧ B = encodeFrame opcode param1 param2 data)

/-- An event the block may cause (20_memory.md R60; 43_transport.md R184): a write of one of its patterns, a read
of 1 to 32 bytes from the device, one of its two delays. -/
def allowedEvent (p : Params) : Event → Prop
  | .wr addr B _ => sentPattern p addr B
  | .rd addr n _ => addr = p.devAddr ∧ 1 ≤ n ∧ n ≤ chunkMax
  | .dl t => t = p.tWhi ∨ ∃ opcode, t = execDelayOf p opcode

/-! The chunked receive, on the list of answers alone (43_transport.md R186 to R190). -/

/-- The next `n` answers of the transport. -/
def nextReplies : Nat → State → List BusReply
  | 0, _ => []
  | n + 1, s => s.nextReply :: nextReplies n s.dropReply

/-- The state once the next `n` answers have been taken. -/
def dropReplies : Nat → State → State
  | 0, s => s
  | n + 1, s => dropReplies n s.dropReply

/-- How a receive ends: with all its bytes, or after its 20th failed read; `failed` and `got` are the failed reads
and the bytes stored, `events` the reads made. -/
structure Gathered where
  exhausted : Bool
  got : List Byte
  failed : Nat
  events : List Event
  deriving DecidableEq, Repr

/-- The receive of `total` bytes from the device at `dev` against the answers of a list, with `got` bytes stored and
`failed` reads failed so far: `none` when the list is too short. -/
def gather (dev : BusAddr) (total : Nat) (got : List Byte) (failed : Nat) (events : List Event) :
    List BusReply → Option Gathered
  | [] => if total ≤ got.length then some ⟨false, got, failed, events⟩ else none
  | r :: rest =>
    if total ≤ got.length then some ⟨false, got, failed, events⟩
    else
      let n := min 32 (total - got.length)
      let events' := events ++ [.rd dev n r]
      match r with
      | .ok C =>
        if 1 ≤ C.length ∧ C.length ≤ n then gather dev total (got ++ C) failed events' rest
        else if failed + 1 = 20 then some ⟨true, got, 20, events'⟩
        else gather dev total got (failed + 1) events' rest
      | .err =>
        if failed + 1 = 20 then some ⟨true, got, 20, events'⟩
        else gather dev total got (failed + 1) events' rest

/-- A byte sequence cut into the chunks of a transport that always delivers all that is asked for: 32 bytes each,
the last one what remains. `fuel` bounds the number of chunks. -/
def fullChunks : Nat → List Byte → List (List Byte)
  | 0, _ => []
  | fuel + 1, B => if B = [] then [] else B.take 32 :: fullChunks fuel (B.drop 32)

/-- The answers of such a transport to the receive of `B`. -/
def fullReplies (B : List Byte) : List BusReply := (fullChunks B.length B).map .ok

/-- The reads of such a receive. -/
def fullReads (dev : BusAddr) (B : List Byte) : List Event :=
  (fullChunks B.length B).map fun C => .rd dev C.length (.ok C)

end Sys2Proof.Machine
end

