-- ==== Sys2Proof/Certificates/Slice0/Obligations.lean ====
section
/-! DEFINITION. The statements for the provers, each a Prop. A docstring says which rules of spec/ a statement
formalises, and where a clause rests on the model's own choice it names the log entry. -/

open Sys2Proof Sys2Proof.Machine

/-! Reset, the host port and the step. -/

/-- 10_state.md section 8 (R35) and R281: the registers after reset, READY, and no bus event. That an unspecified
buffer byte reads as no value is the model's choice (log entry 7). -/
def Obligations.ResetLeavesStatedValues : Prop :=
  State.reset.acc = 0x0000 ∧ State.reset.pst = .unknown ∧ State.reset.retry = 0 ∧ State.reset.cur = 0 ∧
  State.reset.total = 0 ∧ State.reset.txlen = 0 ∧ State.reset.seq = .ready ∧ State.reset.trace = [] ∧
  ∀ a, State.reset.txbuf.read a = none ∧ State.reset.rxbuf.read a = none

/-- A READY block whose next request decodes to `i` runs `i`, the request taken off the host's list (20_memory.md
R66(c), 10_state.md R23). One step is one whole operation: log entry 1. -/
def Obligations.StepRunsDecodedRequest : Prop :=
  ∀ (s : State) (Q : List Byte) (rest : List (List Byte)) (i : Instr),
    s.seq = .ready → s.requests = Q :: rest → decode Q = .ok i →
    step s = exec i { s with requests := rest }

/-- R105: a reserved selector ends with InvalidArgument, whatever follows it, without bus activity or state
change. -/
def Obligations.ReservedSelectorIsInvalidArgument : Prop :=
  ∀ (s : State) (sel : Byte) (operands : List Byte) (rest : List (List Byte)),
    s.seq = .ready → s.requests = (sel :: operands) :: rest →
    sel ∉ ([0x10, 0x11, 0x12, 0x20, 0x21, 0x22, 0x30, 0x31, 0x40, 0x50, 0x60, 0x61] : List Byte) →
    step s = .next { s with
      requests := rest, seq := .ready, responses := s.responses ++ [.error .invalidArgument] }

/-- R106: a request whose length is not its format's, the empty one included, ends with InvalidArgument, without bus
activity or state change. -/
def Obligations.MalformedRequestIsInvalidArgument : Prop :=
  ∀ (s : State) (Q : List Byte) (rest : List (List Byte)),
    s.seq = .ready → s.requests = Q :: rest → (Q = [] ∨ Q.length ≠ requestLength Q) →
    step s = .next { s with
      requests := rest, seq := .ready, responses := s.responses ++ [.error .invalidArgument] }

/-- 30_encoding.md section 2: a request is taken exactly when its selector is one of the twelve and its length is the
one the format gives. -/
def Obligations.RequestIsTakenIffWellFormed : Prop :=
  ∀ Q : List Byte, (∃ i, decode Q = .ok i) ↔
    (∃ sel operands, Q = sel :: operands ∧
      sel ∈ ([0x10, 0x11, 0x12, 0x20, 0x21, 0x22, 0x30, 0x31, 0x40, 0x50, 0x60, 0x61] : List Byte)) ∧
    Q.length = requestLength Q

/-- A READY block without a request does nothing (70_reset_and_hazards.md R281, 20_memory.md R68). That a step is
taken at all is the model's choice (log entry 2). -/
def Obligations.BlockWaitsForRequest : Prop :=
  ∀ s : State, s.seq = .ready → s.requests = [] → step s = .next s

/-- R293: while an operation runs no request is taken; when it has ended the block is READY and has sent one
response. Running on from the label `SEQ` holds is the model's form of a busy block (log entry 1). -/
def Obligations.RunningOperationTakesNoRequest : Prop :=
  ∀ s t : State, s.seq ≠ .ready → step s = .next t →
    t.requests = s.requests ∧ t.seq = .ready ∧ t.params = s.params ∧
    ∃ r, t.responses = s.responses ++ [r]

/-- R80: whatever the request, the state and the transport's answers, the operation comes to its end and the host
gets exactly one response. -/
def Obligations.EveryRequestGetsOneResponse : Prop :=
  ∀ (s : State) (Q : List Byte) (rest : List (List Byte)),
    s.seq = .ready → s.requests = Q :: rest →
    ∃ t r, step s = .next t ∧ t.responses = s.responses ++ [r] ∧ t.seq = .ready ∧
      t.requests = rest ∧ t.params = s.params

/-! Encoding. -/

/-- One word of every format, written out from 30_encoding.md R81 to R87 and R90, is the instruction it stands
for. -/
def Obligations.WordsDecodeAsWritten : Prop :=
  decode [0x10] = .ok .crcBegin ∧
  decode [0x11, 0x02, 0x04, 0x11] = .ok (.crcUpdate [0x04, 0x11]) ∧
  decode [0x21] = .ok .idle ∧
  decode [0x30, 0x47, 0x01, 0x34, 0x12, 0x03, 0xAA, 0xBB, 0xCC] =
    .ok (.encode 0x47 0x01 0x1234 [0xAA, 0xBB, 0xCC]) ∧
  decode [0x31, 0x04, 0x01, 0x07] = .ok (.decode 4 [0x07]) ∧
  decode [0x40, 0x23] = .ok (.receive 35) ∧
  decode [0x50, 0x1B, 0x00, 0x34, 0x12, 0x23, 0x01, 0xEE] = .ok (.execute 0x1B 0x00 0x1234 35 [0xEE]) ∧
  decode [0x60, 0x01, 0x08, 0x00, 0x20] = .ok (.zoneRead 0x01 0x0008 32) ∧
  decode [0x61, 0x02, 0x00, 0x01, 0x02, 0xDE, 0xAD] = .ok (.zoneWrite 0x02 0x0100 2 [0xDE, 0xAD]) ∧
  decodeOn State.reset.params .wakeWrite [0x00] = .ok .wireWakePulse

/-- Decoding the bytes of any well-formed instruction, where they stand, gives it back with every operand
(30_encoding.md R81 to R88, R90, R91). The idle and sleep bytes are told apart by their values. -/
def Obligations.DecodeOfEncodeIsIdentity : Prop :=
  ∀ (p : Params) (i : Instr), p.waIdle ≠ p.waSleep → WellFormed i →
    decodeOn p (channelOf i) (encode p i) = .ok i

/-- A host request that decodes is the one encoding of its instruction, which is well formed and one of the twelve
operations. -/
def Obligations.EncodeOfDecodeIsIdentity : Prop :=
  ∀ (p : Params) (Q : List Byte) (i : Instr), decode Q = .ok i →
    WellFormed i ∧ isOperation i = true ∧ encode p i = Q

/-! The checksum family. -/

/-- R120 to R123: the bit step, eight of them a byte from bit 0 up, the bytes in order, from 0. -/
def Obligations.ChecksumIsStatedAlgorithm : Prop :=
  (∀ (acc : Half) (d : Bool),
    crcStep acc d = if d ≠ acc.getLsbD 15 then (acc <<< 1) ^^^ 0x8005 else acc <<< 1) ∧
  (∀ (acc : Half) (b : Byte), crcByte acc b =
    crcStep (crcStep (crcStep (crcStep (crcStep (crcStep (crcStep (crcStep acc (b.getLsbD 0))
      (b.getLsbD 1)) (b.getLsbD 2)) (b.getLsbD 3)) (b.getLsbD 4)) (b.getLsbD 5)) (b.getLsbD 6))
      (b.getLsbD 7)) ∧
  (∀ acc : Half, crcUpdate acc [] = acc) ∧
  (∀ (acc : Half) (b : Byte) (B : List Byte), crcUpdate acc (b :: B) = crcUpdate (crcByte acc b) B) ∧
  (∀ B : List Byte, crc16 B = crcUpdate 0x0000 B) ∧ crc16 [] = 0x0000

/-- R124: CRC_BEGIN. -/
def Obligations.CrcBeginClearsAcc : Prop :=
  decode [0x10] = .ok .crcBegin ∧
  ∀ s : State, exec .crcBegin s = .next { s with
    acc := 0x0000, seq := .ready, responses := s.responses ++ [.ok []] }

/-- R125: CRC_UPDATE, from whatever `ACC` holds. -/
def Obligations.CrcUpdateFoldsBytesIntoAcc : Prop :=
  (∀ (n : Byte) (B : List Byte), B.length = n.toNat → decode (0x11 :: n :: B) = .ok (.crcUpdate B)) ∧
  (∀ (B : List Byte) (s : State), exec (.crcUpdate B) s = .next { s with
    acc := crcUpdate s.acc B, seq := .ready, responses := s.responses ++ [.ok []] }) ∧
  (∀ acc : Half, crcUpdate acc [] = acc) ∧
  (∀ n : Nat, crcUpdate 0x0000 (List.replicate n 0x00) = 0x0000) ∧
  crcUpdate 0x0000 [0x04, 0x11] = 0x4333

/-- R126: CRC_END returns `ACC`, low byte first, and changes nothing. -/
def Obligations.CrcEndReturnsAcc : Prop :=
  decode [0x12] = .ok .crcEnd ∧
  (∀ s : State, exec .crcEnd s = .next { s with
    seq := .ready, responses := s.responses ++ [.ok [s.acc.extractLsb' 0 8, s.acc.extractLsb' 8 8]] }) ∧
  (Response.ok [0x1E, 0x2D]).packet = [0x00, 0x1E, 0x2D] ∧ crc16 [0x07, 0x02, 0x00, 0x00, 0x00] = 0x2D1E

/-- R127: feeding a sequence in any pieces, empty ones included, gives the accumulator of one update with the whole,
and touches neither the bus nor anything else. -/
def Obligations.SplitUpdatesEqualOneUpdate : Prop :=
  ∀ (pieces : List (List Byte)) (s : State),
    ∃ t, runAll (pieces.map .crcUpdate) s = .next t ∧ t.acc = crcUpdate s.acc pieces.flatten ∧
      t.pst = s.pst ∧ keepsCounters s t ∧ keepsTx s t ∧ keepsRx s t ∧ keepsBus s t ∧ keepsHost s t

/-- R130(a), (b): the checksum is linear over GF(2); zero bytes fed to a zero accumulator leave it zero. -/
def Obligations.ChecksumIsLinear : Prop :=
  (∀ (a b : Half) (d e : Bool), crcStep (a ^^^ b) (d ^^ e) = crcStep a d ^^^ crcStep b e) ∧
  (∀ (a b : Half) (A B : List Byte), A.length = B.length →
    crcUpdate (a ^^^ b) (List.zipWith (· ^^^ ·) A B) = crcUpdate a A ^^^ crcUpdate b B) ∧
  ∀ n : Nat, crcUpdate 0x0000 (List.replicate n 0x00) = 0x0000

/-- R130(c), (d): for a fixed accumulator the byte is recoverable, and for a fixed byte the accumulator is. -/
def Obligations.ChecksumByteIsInjective : Prop :=
  (∀ (acc : Half) (b c : Byte), crcByte acc b = crcByte acc c → b = c) ∧
  (∀ (acc acc' : Half) (b : Byte), crcByte acc b = crcByte acc' b → acc = acc')

/-- R130(c): on two-byte sequences the checksum is a bijection onto the 65536 values. -/
def Obligations.TwoByteChecksumIsBijective : Prop :=
  (∀ a b c d : Byte, crc16 [a, b] = crc16 [c, d] → a = c ∧ b = d) ∧
  ∀ v : Half, ∃ a b : Byte, crc16 [a, b] = v

/-! The frame codec family. -/

/-- R162(a) to (g): the shape of a command frame, and that without its marker it passes the response test. -/
def Obligations.CommandFrameHasStatedShape : Prop :=
  ∀ (opcode param1 : Byte) (param2 : Half) (data : List Byte), data.length ≤ 248 →
    let F := encodeFrame opcode param1 param2 data
    F[0]? = some 0x03 ∧ F.length = 8 + data.length ∧
    F[1]? = some (BitVec.ofNat 8 (F.length - 1)) ∧ F.length - 1 < 256 ∧
    F[2]? = some opcode ∧ F[3]? = some param1 ∧
    F[4]? = some (lo8 param2) ∧ F[5]? = some (hi8 param2) ∧
    (F.drop 6).take data.length = data ∧
    trailer F F.length = crc16 ((F.drop 1).take (5 + data.length)) ∧
    validate (F.drop 1) (7 + data.length) = .ok ((F.drop 2).take (4 + data.length))

/-- R162(h): `encode` is injective. -/
def Obligations.CommandFrameDeterminesOperands : Prop :=
  ∀ (opcode param1 opcode' param1' : Byte) (param2 param2' : Half) (data data' : List Byte),
    data.length ≤ 248 → data'.length ≤ 248 →
    encodeFrame opcode param1 param2 data = encodeFrame opcode' param1' param2' data' →
    opcode = opcode' ∧ param1 = param1' ∧ param2 = param2' ∧ data = data'

/-- R160, R161: ENCODE returns the frame, written out here byte by byte, and leaves it in `TXBUF` and its checksum in
`ACC`; data beyond `MAX_DATA` is InvalidArgument before anything else. -/
def Obligations.EncodeReturnsFrame : Prop :=
  (∀ (opcode param1 lo hi n : Byte) (data : List Byte), data.length = n.toNat →
    decode (0x30 :: opcode :: param1 :: lo :: hi :: n :: data) =
      .ok (.encode opcode param1 (fromLe16 lo hi) data)) ∧
  (∀ (opcode param1 : Byte) (param2 : Half) (data : List Byte) (s : State),
    data.length ≤ s.params.maxData.val →
    let body := BitVec.ofNat 8 (7 + data.length) :: opcode :: param1 ::
      param2.extractLsb' 0 8 :: param2.extractLsb' 8 8 :: data
    let c := crc16 body
    let F := (0x03 : Byte) :: (body ++ [c.extractLsb' 0 8, c.extractLsb' 8 8])
    ∃ t, exec (.encode opcode param1 param2 data) s = .next t ∧ endsWith s t (.ok F) ∧
      txHolds s t F ∧ t.acc = c ∧
      t.pst = s.pst ∧ keepsCounters s t ∧ keepsRx s t ∧ keepsBus s t ∧ keepsHost s t) ∧
  (∀ (opcode param1 : Byte) (param2 : Half) (data : List Byte) (s : State),
    s.params.maxData.val < data.length →
    exec (.encode opcode param1 param2 data) s = .next { s with
      seq := .ready, responses := s.responses ++ [.error .invalidArgument] })

/-- R164: DECODE, the guard, the length test, the checksum test with the computed checksum left in `ACC`, and the
payload, in this order. -/
def Obligations.DecodeValidatesResponse : Prop :=
  (∀ (expected n : Byte) (raw : List Byte), raw.length = n.toNat →
    decode (0x31 :: expected :: n :: raw) = .ok (.decode expected raw)) ∧
  ∀ (expected : Byte) (raw : List Byte) (s : State),
    let L := expected.toNat
    let c := crc16 (raw.take (L - 2))
    exec (.decode expected raw) s = .next (
      if L < 3 then
        { s with seq := .ready, responses := s.responses ++ [.error .invalidArgument] }
      else if raw.length ≠ L then
        { s with seq := .ready, responses := s.responses ++ [.error .shortResponse] }
      else if raw.drop (L - 2) ≠ [c.extractLsb' 0 8, c.extractLsb' 8 8] then
        { s with acc := c, seq := .ready, responses := s.responses ++ [.error .checksumMismatch] }
      else
        { s with acc := c, seq := .ready, responses := s.responses ++ [.ok ((raw.drop 1).take (L - 3))] })

/-- R163, R164: DECODE answers what `validate` gives. -/
def Obligations.DecodeAnswersAsValidate : Prop :=
  ∀ (expected : Byte) (raw : List Byte) (s : State), 3 ≤ expected.toNat →
    ∃ t, exec (.decode expected raw) s = .next t ∧
      endsWith s t (Response.ofResult (validate raw expected.toNat))

/-- R165: a response that passes, altered in one byte before its checksum (so also in one bit), no longer does. -/
def Obligations.AlteredResponseIsRejected : Prop :=
  ∀ (raw raw' payload : List Byte) (L k : Nat), 3 ≤ L → validate raw L = .ok payload →
    k < L - 2 → raw'.length = raw.length → raw'[k]? ≠ raw[k]? →
    (∀ j, j ≠ k → raw'[j]? = raw[j]?) → validate raw' L = .error .checksumMismatch

/-! The power family. -/

/-- R141, R142: WAKE, each way it can go. One write of the pulse; then, if it succeeded, the delay and one read of
four bytes; `PST` Awake exactly on a good response. -/
def Obligations.WakeRunsAsStated : Prop :=
  decode [0x20] = .ok .wake ∧
  ∀ s : State,
    let pulse (r : WriteResult) : Event := .wr s.params.wakeAddr [0x00] r
    let read (r : BusReply) : Event := .rd s.params.devAddr 4 r
    (s.nextReply = .err → exec .wake s = .next { s.dropReply with
      pst := .unknown, trace := s.trace ++ [pulse .err], seq := .ready,
      responses := s.responses ++ [.error .transportError] }) ∧
    (∀ B, s.nextReply = .ok B → s.dropReply.nextReply = .err →
      exec .wake s = .next { s.dropReply.dropReply with
        pst := .unknown, trace := s.trace ++ [pulse .ok, .dl s.params.tWhi, read .err], seq := .ready,
        responses := s.responses ++ [.error .transportError] }) ∧
    (∀ B C, s.nextReply = .ok B → s.dropReply.nextReply = .ok C → C.length ≠ 4 →
      exec .wake s = .next { s.dropReply.dropReply with
        pst := .unknown, trace := s.trace ++ [pulse .ok, .dl s.params.tWhi, read (.ok C)], seq := .ready,
        responses := s.responses ++ [.error .wakeVerificationFailed] }) ∧
    (∀ B c0 c1 c2 c3, s.nextReply = .ok B → s.dropReply.nextReply = .ok [c0, c1, c2, c3] →
      let good : Prop := c1 = 0x11 ∧ crc16 [c0, c1] = 0x4333
      ∃ t, exec .wake s = .next t ∧
        t.trace = s.trace ++ [pulse .ok, .dl s.params.tWhi, read (.ok [c0, c1, c2, c3])] ∧
        t.acc = crc16 [c0, c1] ∧ rxHolds s t [c0, c1, c2, c3] ∧
        (good → t.pst = .awake ∧ endsWith s t (.ok [])) ∧
        (¬ good → t.pst = .unknown ∧ endsWith s t (.error .wakeVerificationFailed)) ∧
        repliesLeft s.dropReply.dropReply t ∧ keepsCounters s t ∧ keepsTx s t ∧ keepsHost s t)

/-- R142(a), (b): with the pulse written and four bytes read, WAKE accepts exactly the responses that begin `04 11`;
bytes 2 and 3 do not matter. `WAKE_LEAD` = 0x04 is the spec's decision (log entry 11). -/
def Obligations.WakeAcceptsExactlyOnePair : Prop :=
  ∀ (s : State) (B : List Byte) (c0 c1 c2 c3 : Byte),
    s.nextReply = .ok B → s.dropReply.nextReply = .ok [c0, c1, c2, c3] →
    ∃ t, exec .wake s = .next t ∧
      (t.responses = s.responses ++ [.ok []] ↔ c0 = 0x04 ∧ c1 = 0x11) ∧
      (t.pst = .awake ↔ c0 = 0x04 ∧ c1 = 0x11)

/-- R143: IDLE, from every state of `PST`: one write of the idle byte, no read, no delay. -/
def Obligations.IdleRunsAsStated : Prop :=
  decode [0x21] = .ok .idle ∧
  ∀ s : State,
    (∀ B, s.nextReply = .ok B → exec .idle s = .next { s.dropReply with
      pst := .idle, trace := s.trace ++ [.wr s.params.devAddr [s.params.waIdle] .ok], seq := .ready,
      responses := s.responses ++ [.ok []] }) ∧
    (s.nextReply = .err → exec .idle s = .next { s.dropReply with
      pst := .unknown, trace := s.trace ++ [.wr s.params.devAddr [s.params.waIdle] .err], seq := .ready,
      responses := s.responses ++ [.error .transportError] })

/-- R145: SLEEP, from every state of `PST`: one write of the sleep byte, no read, no delay. -/
def Obligations.SleepRunsAsStated : Prop :=
  decode [0x22] = .ok .sleep ∧
  ∀ s : State,
    (∀ B, s.nextReply = .ok B → exec .sleep s = .next { s.dropReply with
      pst := .sleeping, trace := s.trace ++ [.wr s.params.devAddr [s.params.waSleep] .ok], seq := .ready,
      responses := s.responses ++ [.ok []] }) ∧
    (s.nextReply = .err → exec .sleep s = .next { s.dropReply with
      pst := .unknown, trace := s.trace ++ [.wr s.params.devAddr [s.params.waSleep] .err], seq := .ready,
      responses := s.responses ++ [.error .transportError] })

/-- R26: every write of `PST`, over all operations and all of their results. -/
def Obligations.PstChangesOnlyByTable : Prop :=
  ∀ (i : Instr) (s t : State), isOperation i = true → exec i s = .next t →
    ∃ r, t.responses = s.responses ++ [r] ∧
      ((r = .error .transportError ∨ r = .error .wakeVerificationFailed ∨ r = .error .receiveExhausted) →
        t.pst = .unknown) ∧
      ((r = .error .invalidArgument ∨ r = .error .shortResponse ∨ r = .error .unimplemented) →
        t.pst = s.pst) ∧
      match i with
      | .wake => r = .ok [] → t.pst = .awake
      | .idle => r = .ok [] → t.pst = .idle
      | .sleep => r = .ok [] → t.pst = .sleeping
      | .receive _ => (∃ v, r = .ok v) → t.pst = s.pst
      | .execute _ _ _ _ _ => ((∃ v, r = .ok v) ∨ r = .error .checksumMismatch) → t.pst = .idle
      | .zoneRead _ _ _ => ((∃ v, r = .ok v) ∨ r = .error .checksumMismatch) → t.pst = .idle
      | _ => t.pst = s.pst

/-! The transport family. -/

/-- R186, R190: RECEIVE does what its loop does on the answers to come, `TOTAL + 19` of which always suffice: the same
reads, the same bytes, the same count of failed reads, the same ending. That `RXBUF` is left with no value after
ReceiveExhausted is the model's form of "unspecified" (log entry 7); nothing is said of it here. -/
def Obligations.ReceiveRefinesGather : Prop :=
  ∀ (total : Byte) (s : State),
    decode [0x40, total] = .ok (.receive total) ∧
    ∃ g t, gather s.params.devAddr total.toNat [] 0 [] (nextReplies (total.toNat + 19) s) = some g ∧
      exec (.receive total) s = .next t ∧ t.trace = s.trace ++ g.events ∧
      repliesLeft (dropReplies g.events.length s) t ∧
      t.retry.toNat = g.failed ∧ t.cur.toNat = g.got.length ∧ t.total = total ∧
      (g.exhausted = true → t.pst = .unknown ∧ endsWith s t (.error .receiveExhausted)) ∧
      (g.exhausted = false → t.pst = s.pst ∧ endsWith s t (.ok g.got) ∧ rxHolds s t g.got ∧
        g.got.length = total.toNat) ∧
      t.acc = s.acc ∧ keepsTx s t ∧ keepsHost s t

/-- R187, R189: a transport that fails every chunk read ends the receive after exactly 20 reads, and 19 failed reads
before a good one do not. -/
def Obligations.ReceiveGivesUpAtTwentiethFailure : Prop :=
  (∀ (total : Byte) (s : State) (rest : List BusReply), total ≠ 0 →
    s.script = List.replicate 20 .err ++ rest →
    ∃ t, exec (.receive total) s = .next t ∧
      t.trace = s.trace ++ List.replicate 20 (.rd s.params.devAddr (min 32 total.toNat) .err) ∧
      t.script = rest ∧ t.retry = 20 ∧ t.cur = 0 ∧ t.total = total ∧ t.pst = .unknown ∧
      endsWith s t (.error .receiveExhausted) ∧ t.acc = s.acc ∧ keepsTx s t ∧ keepsHost s t) ∧
  (∀ (total : Byte) (C : List Byte) (s : State) (rest : List BusReply), total ≠ 0 →
    C.length = total.toNat → C.length ≤ 32 →
    s.script = List.replicate 19 .err ++ .ok C :: rest →
    ∃ t, exec (.receive total) s = .next t ∧ t.script = rest ∧ t.retry = 19 ∧ t.cur = total ∧
      t.pst = s.pst ∧ endsWith s t (.ok C))

/-- R188: a receive makes at most `TOTAL + 19` reads, all of them from the device and of 1 to 32 bytes, whatever the
transport answers. -/
def Obligations.ReceiveReadsAreBounded : Prop :=
  ∀ (total : Byte) (s : State), ∃ t es, exec (.receive total) s = .next t ∧ t.trace = s.trace ++ es ∧
    es.length ≤ total.toNat + 19 ∧ ∀ e ∈ es, ∃ n r, e = .rd s.params.devAddr n r ∧ 1 ≤ n ∧ n ≤ 32

/-- R186, R189, R192: for every transport a receive either returns exactly `total` bytes with at most 19 failed reads,
leaving `PST` alone, or ends with ReceiveExhausted after 20; `ACC` and `TXBUF` are untouched either way. -/
def Obligations.ReceiveReturnsAllOrNothing : Prop :=
  ∀ (total : Byte) (s : State), ∃ t, exec (.receive total) s = .next t ∧ t.total = total ∧ t.acc = s.acc ∧
    keepsTx s t ∧ keepsHost s t ∧
    ((∃ bytes, bytes.length = total.toNat ∧ endsWith s t (.ok bytes) ∧ rxHolds s t bytes ∧
        t.cur = total ∧ t.retry.toNat ≤ 19 ∧ t.pst = s.pst) ∨
     (endsWith s t (.error .receiveExhausted) ∧ t.retry = 20 ∧ t.cur.toNat < total.toNat ∧
        t.pst = .unknown))

/-- R191: `total` = 0. -/
def Obligations.ReceiveOfNothingReadsNothing : Prop :=
  ∀ s : State, exec (.receive 0) s = .next { s with
    total := 0, cur := 0, retry := 0, seq := .ready, responses := s.responses ++ [.ok []] }

/-- R188: against a transport that delivers every chunk in full, a receive of `L` bytes makes exactly `ceil(L / 32)`
reads and no retry, and returns the bytes in order. -/
def Obligations.ReceiveInFullChunks : Prop :=
  ∀ (total : Byte) (B : List Byte) (rest : List BusReply) (s : State), B.length = total.toNat →
    s.script = fullReplies B ++ rest →
    ∃ t, exec (.receive total) s = .next t ∧ t.trace = s.trace ++ fullReads s.params.devAddr B ∧
      (fullReads s.params.devAddr B).length = (B.length + 31) / 32 ∧ t.script = rest ∧
      t.retry = 0 ∧ t.cur = total ∧ t.pst = s.pst ∧ endsWith s t (.ok B)

/-! The dispatch family. -/

/-- R201 step E0, R203: bad arguments end with InvalidArgument before any bus activity, with no state change. -/
def Obligations.ExecuteRefusesBadArguments : Prop :=
  ∀ (opcode param1 expected : Byte) (param2 : Half) (data : List Byte) (s : State),
    (s.params.maxData.val < data.length ∨ expected.toNat < 3) →
    exec (.execute opcode param1 param2 expected data) s = .next { s with
      seq := .ready, responses := s.responses ++ [.error .invalidArgument] }

/-- R201: EXECUTE is its steps. Format HX decodes to it; bad arguments end it at E0 with no effect; otherwise it does
what WAKE, the frame write, the delay, RECEIVE, IDLE and DECODE of the response do one after the other, the first
error ending it. -/
def Obligations.ExecuteIsItsSteps : Prop :=
  (∀ (opcode param1 lo hi expected n : Byte) (data : List Byte), data.length = n.toNat →
    decode (0x50 :: opcode :: param1 :: lo :: hi :: expected :: n :: data) =
      .ok (.execute opcode param1 (fromLe16 lo hi) expected data)) ∧
  ∀ (opcode param1 expected : Byte) (param2 : Half) (data : List Byte) (s : State),
    exec (.execute opcode param1 param2 expected data) s =
      if s.params.maxData.val < data.length ∨ expected.toNat < 3 then
        .next { s with seq := .ready, responses := s.responses ++ [.error .invalidArgument] }
      else cycleOf opcode param1 param2 expected data s

/-- R202, first rows: when WAKE would fail, EXECUTE ends just as WAKE does, with its error and nothing sent after
it. -/
def Obligations.ExecuteFailsAsWakeFails : Prop :=
  ∀ (opcode param1 expected : Byte) (param2 : Half) (data : List Byte) (s u : State) (e : Error),
    data.length ≤ s.params.maxData.val → 3 ≤ expected.toNat →
    exec .wake s = .next u → u.responses = s.responses ++ [.error e] →
    exec (.execute opcode param1 param2 expected data) s = .next u

/-- R202, row E2: the frame write fails. -/
def Obligations.ExecuteEndsWhenFrameWriteFails : Prop :=
  ∀ (opcode param1 expected x y : Byte) (param2 : Half) (data w : List Byte) (rest : List BusReply)
    (s : State),
    data.length ≤ s.params.maxData.val → 3 ≤ expected.toNat →
    s.script = .ok w :: .ok [0x04, 0x11, x, y] :: .err :: rest →
    let F := encodeFrame opcode param1 param2 data
    ∃ t, exec (.execute opcode param1 param2 expected data) s = .next t ∧
      endsWith s t (.error .transportError) ∧ t.pst = .unknown ∧
      t.acc = trailer F F.length ∧ txHolds s t F ∧ t.script = rest ∧
      t.trace = s.trace ++ [.wr s.params.wakeAddr [0x00] .ok, .dl s.params.tWhi,
        .rd s.params.devAddr 4 (.ok [0x04, 0x11, x, y]), .wr s.params.devAddr F .err] ∧
      rxHolds s t [0x04, 0x11, x, y] ∧ t.oracle = s.oracle ∧ keepsCounters s t ∧ keepsHost s t

/-- R202, row E4, R205: the receive is exhausted; no idle is sent. -/
def Obligations.ExecuteEndsWhenReceiveIsExhausted : Prop :=
  ∀ (opcode param1 expected x y : Byte) (param2 : Half) (data w f : List Byte) (rest : List BusReply)
    (s : State),
    data.length ≤ s.params.maxData.val → 3 ≤ expected.toNat →
    s.script = .ok w :: .ok [0x04, 0x11, x, y] :: .ok f :: (List.replicate 20 .err ++ rest) →
    let F := encodeFrame opcode param1 param2 data
    ∃ t, exec (.execute opcode param1 param2 expected data) s = .next t ∧
      endsWith s t (.error .receiveExhausted) ∧ t.pst = .unknown ∧ t.retry = 20 ∧ t.cur = 0 ∧
      t.total = expected ∧ t.acc = trailer F F.length ∧ t.script = rest ∧
      t.trace = s.trace ++ [.wr s.params.wakeAddr [0x00] .ok, .dl s.params.tWhi,
        .rd s.params.devAddr 4 (.ok [0x04, 0x11, x, y]), .wr s.params.devAddr F .ok,
        .dl (execDelayOf s.params opcode)] ++
        List.replicate 20 (.rd s.params.devAddr (min 32 expected.toNat) .err) ∧
      txHolds s t F ∧ t.oracle = s.oracle ∧ keepsHost s t

/-- R202, row E5, R204: the idle write fails; the response is neither validated nor delivered. -/
def Obligations.ExecuteEndsWhenIdleFails : Prop :=
  ∀ (opcode param1 expected x y : Byte) (param2 : Half) (data w f R : List Byte) (rest : List BusReply)
    (s : State),
    data.length ≤ s.params.maxData.val → 3 ≤ expected.toNat → R.length = expected.toNat →
    s.script = .ok w :: .ok [0x04, 0x11, x, y] :: .ok f :: (fullReplies R ++ .err :: rest) →
    let F := encodeFrame opcode param1 param2 data
    ∃ t, exec (.execute opcode param1 param2 expected data) s = .next t ∧
      endsWith s t (.error .transportError) ∧ t.pst = .unknown ∧ t.acc = trailer F F.length ∧
      t.retry = 0 ∧ t.cur = expected ∧ t.total = expected ∧ t.script = rest ∧
      t.trace = s.trace ++ [.wr s.params.wakeAddr [0x00] .ok, .dl s.params.tWhi,
        .rd s.params.devAddr 4 (.ok [0x04, 0x11, x, y]), .wr s.params.devAddr F .ok,
        .dl (execDelayOf s.params opcode)] ++ fullReads s.params.devAddr R ++
        [.wr s.params.devAddr [s.params.waIdle] .err] ∧
      txHolds s t F ∧ t.oracle = s.oracle ∧ keepsHost s t

/-- R201, R202, R204, R208: the complete cycle. Against a transport that writes what it is given and delivers every
chunk in full, EXECUTE sends three writes, two delays and `1 + ceil(L / 32)` reads in this order, returns the payload
of a good response or ChecksumMismatch, and leaves the device idle and the response's checksum in `ACC`. -/
def Obligations.ExecuteRunsCommandCycle : Prop :=
  ∀ (opcode param1 expected x y : Byte) (param2 : Half) (data w f i R : List Byte) (rest : List BusReply)
    (s : State),
    data.length ≤ s.params.maxData.val → 3 ≤ expected.toNat → R.length = expected.toNat →
    s.script = .ok w :: .ok [0x04, 0x11, x, y] :: .ok f :: (fullReplies R ++ .ok i :: rest) →
    let F := encodeFrame opcode param1 param2 data
    ∃ t, exec (.execute opcode param1 param2 expected data) s = .next t ∧
      endsWith s t (Response.ofResult (validate R expected.toNat)) ∧
      t.pst = .idle ∧ t.acc = crc16 (R.take (expected.toNat - 2)) ∧
      txHolds s t F ∧ t.retry = 0 ∧ t.cur = expected ∧ t.total = expected ∧ t.script = rest ∧
      t.trace = s.trace ++ [.wr s.params.wakeAddr [0x00] .ok, .dl s.params.tWhi,
        .rd s.params.devAddr 4 (.ok [0x04, 0x11, x, y]), .wr s.params.devAddr F .ok,
        .dl (execDelayOf s.params opcode)] ++ fullReads s.params.devAddr R ++
        [.wr s.params.devAddr [s.params.waIdle] .ok] ∧
      (∀ a, t.rxbuf.read a =
        if a < R.length then R[a]? else if a < 4 then [0x04, 0x11, x, y][a]? else s.rxbuf.read a) ∧
      t.oracle = s.oracle ∧ keepsHost s t

/-- The frame of EXECUTE (R30, R31, R201), however it ends: `TXBUF` and `TXLEN` are untouched or hold the command
frame, with nothing beyond it touched; `RXBUF` changes only below 4 (the wake response) and below `expected`, but
that ReceiveExhausted leaves its contents open (R189). -/
def Obligations.CommandCycleKeepsTheRest : Prop :=
  ∀ (opcode param1 expected : Byte) (param2 : Half) (data : List Byte) (s t : State),
    exec (.execute opcode param1 param2 expected data) s = .next t →
    (keepsTx s t ∨ txHolds s t (encodeFrame opcode param1 param2 data)) ∧
    (t.responses ≠ s.responses ++ [.error .receiveExhausted] →
      ∀ a, 4 ≤ a → expected.toNat ≤ a → t.rxbuf.read a = s.rxbuf.read a) ∧
    keepsHost s t

/-! The zone family. -/

/-- R222: every length but 4 and 32 is InvalidArgument, before everything else, whatever zone and address. -/
def Obligations.ZoneReadRefusesOtherLengths : Prop :=
  ∀ (zone length : Byte) (address : Half) (s : State), length ≠ 4 → length ≠ 32 →
    exec (.zoneRead zone address length) s = .next { s with
      seq := .ready, responses := s.responses ++ [.error .invalidArgument] }

/-- R95, R223: bit 7 of the zone byte is the size flag in both directions; bits 6 to 0 pass through. -/
def Obligations.ZoneByteCarriesSizeFlag : Prop :=
  ∀ zone : Byte, (zoneParam1 zone 32).getLsbD 7 = true ∧ (zoneParam1 zone 4).getLsbD 7 = false ∧
    ∀ i < 7, (zoneParam1 zone 32).getLsbD i = zone.getLsbD i ∧
      (zoneParam1 zone 4).getLsbD i = zone.getLsbD i

/-- R221, R224, R96, R97: a zone read of 4 or 32 bytes is EXECUTE with the read opcode, the flagged zone byte, the
address as it is, no data and `length + 3`, with the same outcome in every state. -/
def Obligations.ZoneReadIsExecuteOfReadCommand : Prop :=
  ∀ (zone : Byte) (address : Half) (s : State),
    exec (.zoneRead zone address 4) s =
      exec (.execute s.params.opRead (zone &&& 0x7F) address 7 []) s ∧
    exec (.zoneRead zone address 32) s =
      exec (.execute s.params.opRead (zone ||| 0x80) address 35 []) s

/-- R221: against a transport that writes what it is given and delivers every chunk in full, a zone read of 4 or 32
bytes runs the whole cycle and returns exactly `length` bytes of a good response. -/
def Obligations.ZoneReadReturnsPayload : Prop :=
  ∀ (zone length x y : Byte) (address : Half) (w f i R payload : List Byte) (rest : List BusReply)
    (s : State),
    (length = 4 ∨ length = 32) → R.length = length.toNat + 3 →
    validate R (length.toNat + 3) = .ok payload →
    s.script = .ok w :: .ok [0x04, 0x11, x, y] :: .ok f :: (fullReplies R ++ .ok i :: rest) →
    ∃ t, exec (.zoneRead zone address length) s = .next t ∧ payload.length = length.toNat ∧
      endsWith s t (.ok payload) ∧ t.pst = .idle ∧ t.script = rest ∧
      t.acc = crc16 (R.take (length.toNat + 1)) ∧ keepsHost s t

/-- R226: ZONE_WRITE. -/
def Obligations.ZoneWriteIsUnimplemented : Prop :=
  (∀ (zone lo hi length : Byte) (buffer : List Byte), buffer.length = length.toNat →
    decode (0x61 :: zone :: lo :: hi :: length :: buffer) =
      .ok (.zoneWrite zone (fromLe16 lo hi) length buffer)) ∧
  ∀ (zone length : Byte) (address : Half) (buffer : List Byte) (s : State),
    exec (.zoneWrite zone address length buffer) s = .next { s with
      seq := .ready, responses := s.responses ++ [.error .unimplemented] }

/-! The wire patterns. -/

/-- R88, R90: the bus write that carries each pattern the block sends, and nothing else. That a pattern by itself is
executed at all is the model's choice (log entry 10). -/
def Obligations.WirePatternsAreSingleWrites : Prop :=
  ∀ s : State,
    (exec .wireWakePulse s = .next { s.dropReply with
      trace := s.trace ++ [.wr s.params.wakeAddr [0x00] (writeResultOf s.nextReply)] }) ∧
    (exec .wireIdleByte s = .next { s.dropReply with
      trace := s.trace ++ [.wr s.params.devAddr [s.params.waIdle] (writeResultOf s.nextReply)] }) ∧
    (exec .wireSleepByte s = .next { s.dropReply with
      trace := s.trace ++ [.wr s.params.devAddr [s.params.waSleep] (writeResultOf s.nextReply)] }) ∧
    ∀ (opcode param1 : Byte) (param2 : Half) (data : List Byte), data.length ≤ s.params.maxData.val →
      exec (.wireCommandFrame opcode param1 param2 data) s = .next { s.dropReply with
        trace := s.trace ++ [.wr s.params.devAddr (encodeFrame opcode param1 param2 data)
          (writeResultOf s.nextReply)] }

/-- R91: the payload of a response frame is returned when the checksum is that of count byte and payload, and the
frame is invalid otherwise; the count byte is not checked. The model's form: log entry 10. -/
def Obligations.WireResponseFrameIsChecked : Prop :=
  ∀ (count : Byte) (payload : List Byte) (checksum : Half) (s : State),
    let c := crc16 (count :: payload)
    exec (.wireResponseFrame count payload checksum) s = .next { s with
      acc := c, seq := .ready,
      responses := s.responses ++ [if checksum = c then .ok payload else .error .checksumMismatch] }

/-! Whole-machine rules. -/

/-- R249, R207: the results each operation may end with; none ends with another. -/
def Obligations.ResultsAreListedOnes : Prop :=
  ∀ (i : Instr) (s t : State), isOperation i = true → exec i s = .next t →
    ∃ r, t.responses = s.responses ++ [r] ∧
      ((∃ v, r = .ok v ∧ mayReturn i = true) ∨ ∃ e ∈ mayRaise i, r = .error e)

/-- R246: whatever ends with InvalidArgument has had no effect at all. -/
def Obligations.InvalidArgumentChangesNothing : Prop :=
  ∀ (i : Instr) (s t : State), isOperation i = true → exec i s = .next t →
    t.responses = s.responses ++ [.error .invalidArgument] →
    t = { s with seq := .ready, responses := s.responses ++ [.error .invalidArgument] }

/-- R294 and the frames of the bus operations: IDLE and SLEEP leave `ACC`, the counters and the buffers alone, RECEIVE
`ACC` and `TXBUF`, WAKE the counters and `TXBUF`; all leave the host's side alone. -/
def Obligations.BusOperationsKeepTheRest : Prop :=
  ∀ s t : State,
    (exec .idle s = .next t → t.acc = s.acc ∧ keepsCounters s t ∧ keepsTx s t ∧ keepsRx s t ∧ keepsHost s t) ∧
    (exec .sleep s = .next t → t.acc = s.acc ∧ keepsCounters s t ∧ keepsTx s t ∧ keepsRx s t ∧ keepsHost s t) ∧
    (exec .wake s = .next t → keepsCounters s t ∧ keepsTx s t ∧ keepsHost s t ∧
      ∀ a, 4 ≤ a → t.rxbuf.read a = s.rxbuf.read a) ∧
    (∀ total, exec (.receive total) s = .next t → t.acc = s.acc ∧ keepsTx s t ∧ keepsHost s t)

/-- R60, R108, R184: in every state of the invariant, a step only adds events the block may cause: writes of its four
patterns, reads of 1 to 32 bytes from the device, its two delays. -/
def Obligations.OnlyStatedEventsHappen : Prop :=
  ∀ s t : State, s.Inv → step s = .next t →
    ∃ es, t.trace = s.trace ++ es ∧ ∀ e ∈ es, allowedEvent s.params e

/-- R148: no rule reads `PST`. Changing the belief before an operation changes nothing of what it does; `PST` itself
ends the same, or is untouched in both runs. -/
def Obligations.NoOperationReadsPst : Prop :=
  ∀ (i : Instr) (s t : State) (v : PowerState), exec i s = .next t →
    ∃ u, exec i { s with pst := v } = .next u ∧ { u with pst := t.pst } = t ∧
      (u.pst = t.pst ∨ (u.pst = v ∧ t.pst = s.pst))

/-- R27 to R31: no operation reads what an earlier one left in `RETRY`, `CUR`, `TOTAL`, `TXBUF`, `TXLEN` or `RXBUF`.
Two states that differ only there answer alike and do the same on the bus. -/
def Obligations.NoOperationReadsLeftovers : Prop :=
  ∀ (i : Instr) (s t : State) (retry : BitVec 5) (cur total : Byte) (txbuf rxbuf : Memory) (txlen : BitVec 9),
    exec i s = .next t →
    ∃ u, exec i { s with
        retry := retry, cur := cur, total := total, txbuf := txbuf, txlen := txlen, rxbuf := rxbuf } = .next u ∧
      u.responses = t.responses ∧ u.trace = t.trace ∧ u.script = t.script ∧ u.oracle = t.oracle ∧
      u.acc = t.acc ∧ u.pst = t.pst ∧ u.seq = t.seq

/-- The invariant holds after reset. -/
def Obligations.ResetMeetsInvariant : Prop := State.reset.Inv

/-- Every step keeps the invariant: buffers in canonical form and within their capacities (R30, R31), `RETRY` at most
20 (R27), `CUR` at most `TOTAL` (R28), `TXLEN` at most `TX_MAX` (R30), the running operation where its own steps
lead. -/
def Obligations.StepKeepsInvariant : Prop :=
  ∀ s t : State, s.Inv → step s = .next t → t.Inv

/-- R240 ("no unrecoverable process abort within this core") and R35 (no rule reads a buffer byte before it is
written): in every state of the invariant a step gives a next state, never a fault or a refusal. -/
def Obligations.InvariantStateNeverStops : Prop :=
  ∀ s : State, s.Inv → ∃ t, step s = .next t
end

