-- ==== Sys2Proof/Laws/Memory.lean ====
section
/-! SUPPORT. The laws of the buffers: reading what was written, leaving the rest alone, keeping the canonical form
and the capacity. -/

namespace Sys2Proof.Machine

@[simp] theorem Memory.read_nil (a : Nat) : Memory.read [] a = none := rfl

theorem Memory.read_cons (x : Nat) (b : Byte) (m : Memory) (a : Nat) :
    Memory.read ((x, b) :: m) a = if a = x then some b else Memory.read m a := rfl

/-- A byte reads as what was written there last. -/
@[simp] theorem Memory.read_write_same (m : Memory) (a : Nat) (b : Byte) :
    Memory.read (Memory.write m a b) a = some b := by
  induction m with
  | nil => simp [Memory.write, Memory.read]
  | cons x m ih =>
    obtain ⟨x, y⟩ := x
    unfold Memory.write
    split
    · simp [Memory.read]
    · split
      · simp [Memory.read]
      · simp [Memory.read, *]

/-- A write leaves every other index alone. -/
theorem Memory.read_write_other (m : Memory) {a i : Nat} (b : Byte) (h : i ≠ a) :
    Memory.read (Memory.write m a b) i = Memory.read m i := by
  induction m with
  | nil => simp [Memory.write, Memory.read, h]
  | cons x m ih =>
    obtain ⟨x, y⟩ := x
    unfold Memory.write
    split
    · simp [Memory.read, h]
    · split
      · subst_vars
        simp [Memory.read, h]
      · simp [Memory.read, ih]

/-- What `writeAll` makes of every index. -/
theorem Memory.read_writeAll (m : Memory) (a : Nat) (bs : List Byte) (i : Nat) :
    Memory.read (Memory.writeAll m a bs) i =
      if a ≤ i ∧ i < a + bs.length then bs[i - a]? else Memory.read m i := by
  induction bs generalizing m a with
  | nil => simp [Memory.writeAll]
  | cons b bs ih =>
    rw [Memory.writeAll, ih]
    by_cases hi : i = a
    · subst hi
      simp
    · by_cases h : a ≤ i ∧ i < a + (b :: bs).length
      · have h' : a + 1 ≤ i ∧ i < a + 1 + bs.length := by simp at h; omega
        rw [if_pos h', if_pos h, show i - a = (i - (a + 1)) + 1 by omega]
        simp
      · have h' : ¬ (a + 1 ≤ i ∧ i < a + 1 + bs.length) := by simp at h; omega
        rw [if_neg h', if_neg h, Memory.read_write_other _ _ hi]

/-- `readAll` answers with the bytes read one by one, if each has been written. -/
theorem Memory.readAll_eq_some (m : Memory) (a n : Nat) (bs : List Byte) :
    Memory.readAll m a n = some bs ↔
      bs.length = n ∧ ∀ i < n, Memory.read m (a + i) = bs[i]? := by
  induction n generalizing a bs with
  | zero => cases bs <;> simp [Memory.readAll]
  | succ n ih =>
    cases bs with
    | nil =>
      simp only [Memory.readAll]
      split <;> simp
    | cons b bs =>
      have hz : (∀ i < n + 1, Memory.read m (a + i) = (b :: bs)[i]?) ↔
          Memory.read m a = some b ∧ ∀ i < n, Memory.read m (a + 1 + i) = bs[i]? := by
        constructor
        · intro h
          refine ⟨by simpa using h 0 (by omega), fun i hi => ?_⟩
          have := h (i + 1) (by omega)
          rw [show a + 1 + i = a + (i + 1) by omega]
          simpa using this
        · rintro ⟨h0, h⟩ i hi
          cases i with
          | zero => simpa using h0
          | succ i =>
            rw [show a + (i + 1) = a + 1 + i by omega]
            simpa using h i (by omega)
      have step : Memory.readAll m a (n + 1) = some (b :: bs) ↔
          Memory.read m a = some b ∧ Memory.readAll m (a + 1) n = some bs := by
        simp only [Memory.readAll]
        split
        · rename_i h1 h2
          simp [h1, h2]
        · rename_i hne
          constructor
          · simp
          · rintro ⟨h1, h2⟩
            exact absurd h2 (hne b bs h1)
      rw [step, ih, hz]
      simp
      tauto

/-- `readAll` answers when every index has been written. -/
theorem Memory.readAll_isSome (m : Memory) (a n : Nat)
    (h : ∀ i < n, (Memory.read m (a + i)).isSome = true) :
    ∃ bs, Memory.readAll m a n = some bs ∧ bs.length = n := by
  induction n generalizing a with
  | zero => exact ⟨[], rfl, rfl⟩
  | succ n ih =>
    obtain ⟨b, hb⟩ := Option.isSome_iff_exists.mp (h 0 (by omega))
    obtain ⟨bs, hbs, hl⟩ := ih (a + 1) (fun i hi => by
      rw [show a + 1 + i = a + (i + 1) by omega]
      exact h (i + 1) (by omega))
    refine ⟨b :: bs, ?_, by simp [hl]⟩
    simp only [Nat.add_zero] at hb
    simp [Memory.readAll, hb, hbs]

theorem Memory.mem_write {m : Memory} {a : Nat} {b : Byte} {x : Host.Cell}
    (h : x ∈ Memory.write m a b) : x = (a, b) ∨ x ∈ m := by
  induction m with
  | nil => simpa [Memory.write] using h
  | cons y m ih =>
    obtain ⟨y, c⟩ := y
    unfold Memory.write at h
    split at h
    · simpa using h
    · split at h
      · simp at h
        tauto
      · simp at h
        rcases h with h | h
        · simp [h]
        · rcases ih h with h | h <;> simp [h]

/-- A write keeps the canonical form. -/
theorem Memory.wf_write {m : Memory} (h : m.wf) (a : Nat) (b : Byte) : (Memory.write m a b).wf := by
  induction m with
  | nil => simp [Memory.write, Memory.wf]
  | cons x m ih =>
    obtain ⟨x, y⟩ := x
    have hx := List.pairwise_cons.mp h
    unfold Memory.write
    split
    · rename_i hlt
      refine List.pairwise_cons.mpr ⟨?_, h⟩
      intro z hz
      rcases List.mem_cons.mp hz with rfl | hz
      · exact hlt
      · exact Nat.lt_trans hlt (hx.1 z hz)
    · split
      · rename_i heq
        subst heq
        exact List.pairwise_cons.mpr ⟨hx.1, hx.2⟩
      · refine List.pairwise_cons.mpr ⟨?_, ih hx.2⟩
        intro z hz
        rcases Memory.mem_write hz with rfl | hz
        · show x < a
          omega
        · exact hx.1 z hz

/-- `writeAll` keeps the canonical form. -/
theorem Memory.wf_writeAll {m : Memory} (h : m.wf) (a : Nat) (bs : List Byte) :
    (Memory.writeAll m a bs).wf := by
  induction bs generalizing m a with
  | nil => exact h
  | cons b bs ih => exact ih (Memory.wf_write h a b) (a + 1)

/-- Writes below a capacity stay below it. -/
theorem Memory.below_writeAll {m : Memory} {n : Nat} (h : m.below n) (a : Nat) (bs : List Byte)
    (hn : a + bs.length ≤ n) : (Memory.writeAll m a bs).below n := by
  induction bs generalizing m a with
  | nil => exact h
  | cons b bs ih =>
    simp at hn
    refine ih ?_ (a + 1) (by omega)
    intro x hx
    rcases Memory.mem_write hx with rfl | hx
    · show a < n
      omega
    · exact h x hx

/-- An empty buffer is in canonical form: what reset leaves, and what a failed receive leaves of `RXBUF`. -/
theorem Memory.wf_nil : Memory.wf [] := List.Pairwise.nil

/-- The buffers after reset are in canonical form. -/
theorem State.reset_wf : State.reset.txbuf.wf ∧ State.reset.rxbuf.wf := ⟨Memory.wf_nil, Memory.wf_nil⟩

/-- What was written is read back. -/
theorem Memory.readAll_writeAll (m : Memory) (a : Nat) (bs : List Byte) :
    Memory.readAll (Memory.writeAll m a bs) a bs.length = some bs := by
  rw [Memory.readAll_eq_some]
  refine ⟨rfl, fun i hi => ?_⟩
  rw [Memory.read_writeAll, if_pos (by omega)]
  simp

end Sys2Proof.Machine
end

