-- ==== Sys2Proof/Laws/State.lean ====
section
/-! SUPPORT. What each named update does to each field of State, so that no proof unfolds a record update; and which
updates leave the transport's next answer alone. -/

namespace Sys2Proof.Machine

/-! `State.goto` -/

@[simp] theorem State.goto_acc (s : State) (q : Seq) : (s.goto q).acc = s.acc := rfl
@[simp] theorem State.goto_pst (s : State) (q : Seq) : (s.goto q).pst = s.pst := rfl
@[simp] theorem State.goto_retry (s : State) (q : Seq) : (s.goto q).retry = s.retry := rfl
@[simp] theorem State.goto_cur (s : State) (q : Seq) : (s.goto q).cur = s.cur := rfl
@[simp] theorem State.goto_total (s : State) (q : Seq) : (s.goto q).total = s.total := rfl
@[simp] theorem State.goto_txbuf (s : State) (q : Seq) : (s.goto q).txbuf = s.txbuf := rfl
@[simp] theorem State.goto_txlen (s : State) (q : Seq) : (s.goto q).txlen = s.txlen := rfl
@[simp] theorem State.goto_rxbuf (s : State) (q : Seq) : (s.goto q).rxbuf = s.rxbuf := rfl
@[simp] theorem State.goto_seq (s : State) (q : Seq) : (s.goto q).seq = q := rfl
@[simp] theorem State.goto_params (s : State) (q : Seq) : (s.goto q).params = s.params := rfl
@[simp] theorem State.goto_requests (s : State) (q : Seq) : (s.goto q).requests = s.requests := rfl
@[simp] theorem State.goto_responses (s : State) (q : Seq) : (s.goto q).responses = s.responses := rfl
@[simp] theorem State.goto_script (s : State) (q : Seq) : (s.goto q).script = s.script := rfl
@[simp] theorem State.goto_oracle (s : State) (q : Seq) : (s.goto q).oracle = s.oracle := rfl
@[simp] theorem State.goto_trace (s : State) (q : Seq) : (s.goto q).trace = s.trace := rfl
@[simp] theorem State.goto_nextReply (s : State) (q : Seq) : (s.goto q).nextReply = s.nextReply := rfl

/-! `State.withAcc` -/

@[simp] theorem State.withAcc_acc (s : State) (v : Half) : (s.withAcc v).acc = v := rfl
@[simp] theorem State.withAcc_pst (s : State) (v : Half) : (s.withAcc v).pst = s.pst := rfl
@[simp] theorem State.withAcc_retry (s : State) (v : Half) : (s.withAcc v).retry = s.retry := rfl
@[simp] theorem State.withAcc_cur (s : State) (v : Half) : (s.withAcc v).cur = s.cur := rfl
@[simp] theorem State.withAcc_total (s : State) (v : Half) : (s.withAcc v).total = s.total := rfl
@[simp] theorem State.withAcc_txbuf (s : State) (v : Half) : (s.withAcc v).txbuf = s.txbuf := rfl
@[simp] theorem State.withAcc_txlen (s : State) (v : Half) : (s.withAcc v).txlen = s.txlen := rfl
@[simp] theorem State.withAcc_rxbuf (s : State) (v : Half) : (s.withAcc v).rxbuf = s.rxbuf := rfl
@[simp] theorem State.withAcc_seq (s : State) (v : Half) : (s.withAcc v).seq = s.seq := rfl
@[simp] theorem State.withAcc_params (s : State) (v : Half) : (s.withAcc v).params = s.params := rfl
@[simp] theorem State.withAcc_requests (s : State) (v : Half) : (s.withAcc v).requests = s.requests := rfl
@[simp] theorem State.withAcc_responses (s : State) (v : Half) : (s.withAcc v).responses = s.responses := rfl
@[simp] theorem State.withAcc_script (s : State) (v : Half) : (s.withAcc v).script = s.script := rfl
@[simp] theorem State.withAcc_oracle (s : State) (v : Half) : (s.withAcc v).oracle = s.oracle := rfl
@[simp] theorem State.withAcc_trace (s : State) (v : Half) : (s.withAcc v).trace = s.trace := rfl
@[simp] theorem State.withAcc_nextReply (s : State) (v : Half) : (s.withAcc v).nextReply = s.nextReply := rfl

/-! `State.withPst` -/

@[simp] theorem State.withPst_acc (s : State) (v : PowerState) : (s.withPst v).acc = s.acc := rfl
@[simp] theorem State.withPst_pst (s : State) (v : PowerState) : (s.withPst v).pst = v := rfl
@[simp] theorem State.withPst_retry (s : State) (v : PowerState) : (s.withPst v).retry = s.retry := rfl
@[simp] theorem State.withPst_cur (s : State) (v : PowerState) : (s.withPst v).cur = s.cur := rfl
@[simp] theorem State.withPst_total (s : State) (v : PowerState) : (s.withPst v).total = s.total := rfl
@[simp] theorem State.withPst_txbuf (s : State) (v : PowerState) : (s.withPst v).txbuf = s.txbuf := rfl
@[simp] theorem State.withPst_txlen (s : State) (v : PowerState) : (s.withPst v).txlen = s.txlen := rfl
@[simp] theorem State.withPst_rxbuf (s : State) (v : PowerState) : (s.withPst v).rxbuf = s.rxbuf := rfl
@[simp] theorem State.withPst_seq (s : State) (v : PowerState) : (s.withPst v).seq = s.seq := rfl
@[simp] theorem State.withPst_params (s : State) (v : PowerState) : (s.withPst v).params = s.params := rfl
@[simp] theorem State.withPst_requests (s : State) (v : PowerState) : (s.withPst v).requests = s.requests := rfl
@[simp] theorem State.withPst_responses (s : State) (v : PowerState) : (s.withPst v).responses = s.responses := rfl
@[simp] theorem State.withPst_script (s : State) (v : PowerState) : (s.withPst v).script = s.script := rfl
@[simp] theorem State.withPst_oracle (s : State) (v : PowerState) : (s.withPst v).oracle = s.oracle := rfl
@[simp] theorem State.withPst_trace (s : State) (v : PowerState) : (s.withPst v).trace = s.trace := rfl
@[simp] theorem State.withPst_nextReply (s : State) (v : PowerState) : (s.withPst v).nextReply = s.nextReply := rfl

/-! `State.loadTx` -/

@[simp] theorem State.loadTx_acc (s : State) (F : List Byte) : (s.loadTx F).acc = s.acc := rfl
@[simp] theorem State.loadTx_pst (s : State) (F : List Byte) : (s.loadTx F).pst = s.pst := rfl
@[simp] theorem State.loadTx_retry (s : State) (F : List Byte) : (s.loadTx F).retry = s.retry := rfl
@[simp] theorem State.loadTx_cur (s : State) (F : List Byte) : (s.loadTx F).cur = s.cur := rfl
@[simp] theorem State.loadTx_total (s : State) (F : List Byte) : (s.loadTx F).total = s.total := rfl
@[simp] theorem State.loadTx_txbuf (s : State) (F : List Byte) : (s.loadTx F).txbuf = s.txbuf.writeAll 0 F := rfl
@[simp] theorem State.loadTx_txlen (s : State) (F : List Byte) : (s.loadTx F).txlen = BitVec.ofNat 9 F.length := rfl
@[simp] theorem State.loadTx_rxbuf (s : State) (F : List Byte) : (s.loadTx F).rxbuf = s.rxbuf := rfl
@[simp] theorem State.loadTx_seq (s : State) (F : List Byte) : (s.loadTx F).seq = s.seq := rfl
@[simp] theorem State.loadTx_params (s : State) (F : List Byte) : (s.loadTx F).params = s.params := rfl
@[simp] theorem State.loadTx_requests (s : State) (F : List Byte) : (s.loadTx F).requests = s.requests := rfl
@[simp] theorem State.loadTx_responses (s : State) (F : List Byte) : (s.loadTx F).responses = s.responses := rfl
@[simp] theorem State.loadTx_script (s : State) (F : List Byte) : (s.loadTx F).script = s.script := rfl
@[simp] theorem State.loadTx_oracle (s : State) (F : List Byte) : (s.loadTx F).oracle = s.oracle := rfl
@[simp] theorem State.loadTx_trace (s : State) (F : List Byte) : (s.loadTx F).trace = s.trace := rfl
@[simp] theorem State.loadTx_nextReply (s : State) (F : List Byte) : (s.loadTx F).nextReply = s.nextReply := rfl

/-! `State.storeRx` -/

@[simp] theorem State.storeRx_acc (s : State) (a : Nat) (C : List Byte) : (s.storeRx a C).acc = s.acc := rfl
@[simp] theorem State.storeRx_pst (s : State) (a : Nat) (C : List Byte) : (s.storeRx a C).pst = s.pst := rfl
@[simp] theorem State.storeRx_retry (s : State) (a : Nat) (C : List Byte) : (s.storeRx a C).retry = s.retry := rfl
@[simp] theorem State.storeRx_cur (s : State) (a : Nat) (C : List Byte) : (s.storeRx a C).cur = s.cur := rfl
@[simp] theorem State.storeRx_total (s : State) (a : Nat) (C : List Byte) : (s.storeRx a C).total = s.total := rfl
@[simp] theorem State.storeRx_txbuf (s : State) (a : Nat) (C : List Byte) : (s.storeRx a C).txbuf = s.txbuf := rfl
@[simp] theorem State.storeRx_txlen (s : State) (a : Nat) (C : List Byte) : (s.storeRx a C).txlen = s.txlen := rfl
@[simp] theorem State.storeRx_rxbuf (s : State) (a : Nat) (C : List Byte) :
    (s.storeRx a C).rxbuf = s.rxbuf.writeAll a C := rfl
@[simp] theorem State.storeRx_seq (s : State) (a : Nat) (C : List Byte) : (s.storeRx a C).seq = s.seq := rfl
@[simp] theorem State.storeRx_params (s : State) (a : Nat) (C : List Byte) : (s.storeRx a C).params = s.params := rfl
@[simp] theorem State.storeRx_requests (s : State) (a : Nat) (C : List Byte) :
    (s.storeRx a C).requests = s.requests := rfl
@[simp] theorem State.storeRx_responses (s : State) (a : Nat) (C : List Byte) :
    (s.storeRx a C).responses = s.responses := rfl
@[simp] theorem State.storeRx_script (s : State) (a : Nat) (C : List Byte) : (s.storeRx a C).script = s.script := rfl
@[simp] theorem State.storeRx_oracle (s : State) (a : Nat) (C : List Byte) : (s.storeRx a C).oracle = s.oracle := rfl
@[simp] theorem State.storeRx_trace (s : State) (a : Nat) (C : List Byte) : (s.storeRx a C).trace = s.trace := rfl
@[simp] theorem State.storeRx_nextReply (s : State) (a : Nat) (C : List Byte) : (s.storeRx a C).nextReply = s.nextReply := rfl

/-! `State.forgetRx` -/

@[simp] theorem State.forgetRx_acc (s : State) : s.forgetRx.acc = s.acc := rfl
@[simp] theorem State.forgetRx_pst (s : State) : s.forgetRx.pst = s.pst := rfl
@[simp] theorem State.forgetRx_retry (s : State) : s.forgetRx.retry = s.retry := rfl
@[simp] theorem State.forgetRx_cur (s : State) : s.forgetRx.cur = s.cur := rfl
@[simp] theorem State.forgetRx_total (s : State) : s.forgetRx.total = s.total := rfl
@[simp] theorem State.forgetRx_txbuf (s : State) : s.forgetRx.txbuf = s.txbuf := rfl
@[simp] theorem State.forgetRx_txlen (s : State) : s.forgetRx.txlen = s.txlen := rfl
@[simp] theorem State.forgetRx_rxbuf (s : State) : s.forgetRx.rxbuf = [] := rfl
@[simp] theorem State.forgetRx_seq (s : State) : s.forgetRx.seq = s.seq := rfl
@[simp] theorem State.forgetRx_params (s : State) : s.forgetRx.params = s.params := rfl
@[simp] theorem State.forgetRx_requests (s : State) : s.forgetRx.requests = s.requests := rfl
@[simp] theorem State.forgetRx_responses (s : State) : s.forgetRx.responses = s.responses := rfl
@[simp] theorem State.forgetRx_script (s : State) : s.forgetRx.script = s.script := rfl
@[simp] theorem State.forgetRx_oracle (s : State) : s.forgetRx.oracle = s.oracle := rfl
@[simp] theorem State.forgetRx_trace (s : State) : s.forgetRx.trace = s.trace := rfl
@[simp] theorem State.forgetRx_nextReply (s : State) : s.forgetRx.nextReply = s.nextReply := rfl

/-! `State.startReceive` -/

@[simp] theorem State.startReceive_acc (s : State) (n : Byte) : (s.startReceive n).acc = s.acc := rfl
@[simp] theorem State.startReceive_pst (s : State) (n : Byte) : (s.startReceive n).pst = s.pst := rfl
@[simp] theorem State.startReceive_retry (s : State) (n : Byte) : (s.startReceive n).retry = 0 := rfl
@[simp] theorem State.startReceive_cur (s : State) (n : Byte) : (s.startReceive n).cur = 0 := rfl
@[simp] theorem State.startReceive_total (s : State) (n : Byte) : (s.startReceive n).total = n := rfl
@[simp] theorem State.startReceive_txbuf (s : State) (n : Byte) : (s.startReceive n).txbuf = s.txbuf := rfl
@[simp] theorem State.startReceive_txlen (s : State) (n : Byte) : (s.startReceive n).txlen = s.txlen := rfl
@[simp] theorem State.startReceive_rxbuf (s : State) (n : Byte) : (s.startReceive n).rxbuf = s.rxbuf := rfl
@[simp] theorem State.startReceive_seq (s : State) (n : Byte) : (s.startReceive n).seq = s.seq := rfl
@[simp] theorem State.startReceive_params (s : State) (n : Byte) : (s.startReceive n).params = s.params := rfl
@[simp] theorem State.startReceive_requests (s : State) (n : Byte) : (s.startReceive n).requests = s.requests := rfl
@[simp] theorem State.startReceive_responses (s : State) (n : Byte) :
    (s.startReceive n).responses = s.responses := rfl
@[simp] theorem State.startReceive_script (s : State) (n : Byte) : (s.startReceive n).script = s.script := rfl
@[simp] theorem State.startReceive_oracle (s : State) (n : Byte) : (s.startReceive n).oracle = s.oracle := rfl
@[simp] theorem State.startReceive_trace (s : State) (n : Byte) : (s.startReceive n).trace = s.trace := rfl
@[simp] theorem State.startReceive_nextReply (s : State) (n : Byte) : (s.startReceive n).nextReply = s.nextReply := rfl

/-! `State.advance` -/

@[simp] theorem State.advance_acc (s : State) (n : Nat) : (s.advance n).acc = s.acc := rfl
@[simp] theorem State.advance_pst (s : State) (n : Nat) : (s.advance n).pst = s.pst := rfl
@[simp] theorem State.advance_retry (s : State) (n : Nat) : (s.advance n).retry = s.retry := rfl
@[simp] theorem State.advance_cur (s : State) (n : Nat) : (s.advance n).cur = s.cur + BitVec.ofNat 8 n := rfl
@[simp] theorem State.advance_total (s : State) (n : Nat) : (s.advance n).total = s.total := rfl
@[simp] theorem State.advance_txbuf (s : State) (n : Nat) : (s.advance n).txbuf = s.txbuf := rfl
@[simp] theorem State.advance_txlen (s : State) (n : Nat) : (s.advance n).txlen = s.txlen := rfl
@[simp] theorem State.advance_rxbuf (s : State) (n : Nat) : (s.advance n).rxbuf = s.rxbuf := rfl
@[simp] theorem State.advance_seq (s : State) (n : Nat) : (s.advance n).seq = s.seq := rfl
@[simp] theorem State.advance_params (s : State) (n : Nat) : (s.advance n).params = s.params := rfl
@[simp] theorem State.advance_requests (s : State) (n : Nat) : (s.advance n).requests = s.requests := rfl
@[simp] theorem State.advance_responses (s : State) (n : Nat) : (s.advance n).responses = s.responses := rfl
@[simp] theorem State.advance_script (s : State) (n : Nat) : (s.advance n).script = s.script := rfl
@[simp] theorem State.advance_oracle (s : State) (n : Nat) : (s.advance n).oracle = s.oracle := rfl
@[simp] theorem State.advance_trace (s : State) (n : Nat) : (s.advance n).trace = s.trace := rfl
@[simp] theorem State.advance_nextReply (s : State) (n : Nat) : (s.advance n).nextReply = s.nextReply := rfl

/-! `State.countFailure` -/

@[simp] theorem State.countFailure_acc (s : State) : s.countFailure.acc = s.acc := rfl
@[simp] theorem State.countFailure_pst (s : State) : s.countFailure.pst = s.pst := rfl
@[simp] theorem State.countFailure_retry (s : State) : s.countFailure.retry = s.retry + 1 := rfl
@[simp] theorem State.countFailure_cur (s : State) : s.countFailure.cur = s.cur := rfl
@[simp] theorem State.countFailure_total (s : State) : s.countFailure.total = s.total := rfl
@[simp] theorem State.countFailure_txbuf (s : State) : s.countFailure.txbuf = s.txbuf := rfl
@[simp] theorem State.countFailure_txlen (s : State) : s.countFailure.txlen = s.txlen := rfl
@[simp] theorem State.countFailure_rxbuf (s : State) : s.countFailure.rxbuf = s.rxbuf := rfl
@[simp] theorem State.countFailure_seq (s : State) : s.countFailure.seq = s.seq := rfl
@[simp] theorem State.countFailure_params (s : State) : s.countFailure.params = s.params := rfl
@[simp] theorem State.countFailure_requests (s : State) : s.countFailure.requests = s.requests := rfl
@[simp] theorem State.countFailure_responses (s : State) : s.countFailure.responses = s.responses := rfl
@[simp] theorem State.countFailure_script (s : State) : s.countFailure.script = s.script := rfl
@[simp] theorem State.countFailure_oracle (s : State) : s.countFailure.oracle = s.oracle := rfl
@[simp] theorem State.countFailure_trace (s : State) : s.countFailure.trace = s.trace := rfl
@[simp] theorem State.countFailure_nextReply (s : State) : s.countFailure.nextReply = s.nextReply := rfl

/-! `State.dropReply` -/

@[simp] theorem State.dropReply_acc (s : State) : s.dropReply.acc = s.acc := rfl
@[simp] theorem State.dropReply_pst (s : State) : s.dropReply.pst = s.pst := rfl
@[simp] theorem State.dropReply_retry (s : State) : s.dropReply.retry = s.retry := rfl
@[simp] theorem State.dropReply_cur (s : State) : s.dropReply.cur = s.cur := rfl
@[simp] theorem State.dropReply_total (s : State) : s.dropReply.total = s.total := rfl
@[simp] theorem State.dropReply_txbuf (s : State) : s.dropReply.txbuf = s.txbuf := rfl
@[simp] theorem State.dropReply_txlen (s : State) : s.dropReply.txlen = s.txlen := rfl
@[simp] theorem State.dropReply_rxbuf (s : State) : s.dropReply.rxbuf = s.rxbuf := rfl
@[simp] theorem State.dropReply_seq (s : State) : s.dropReply.seq = s.seq := rfl
@[simp] theorem State.dropReply_params (s : State) : s.dropReply.params = s.params := rfl
@[simp] theorem State.dropReply_requests (s : State) : s.dropReply.requests = s.requests := rfl
@[simp] theorem State.dropReply_responses (s : State) : s.dropReply.responses = s.responses := rfl
@[simp] theorem State.dropReply_script (s : State) : s.dropReply.script = s.script.tail := rfl
@[simp] theorem State.dropReply_oracle (s : State) :
    s.dropReply.oracle = if s.script.isEmpty then s.oracle + 1 else s.oracle := rfl
@[simp] theorem State.dropReply_trace (s : State) : s.dropReply.trace = s.trace := rfl

/-! `State.emit` -/

@[simp] theorem State.emit_acc (s : State) (e : Event) : (s.emit e).acc = s.acc := rfl
@[simp] theorem State.emit_pst (s : State) (e : Event) : (s.emit e).pst = s.pst := rfl
@[simp] theorem State.emit_retry (s : State) (e : Event) : (s.emit e).retry = s.retry := rfl
@[simp] theorem State.emit_cur (s : State) (e : Event) : (s.emit e).cur = s.cur := rfl
@[simp] theorem State.emit_total (s : State) (e : Event) : (s.emit e).total = s.total := rfl
@[simp] theorem State.emit_txbuf (s : State) (e : Event) : (s.emit e).txbuf = s.txbuf := rfl
@[simp] theorem State.emit_txlen (s : State) (e : Event) : (s.emit e).txlen = s.txlen := rfl
@[simp] theorem State.emit_rxbuf (s : State) (e : Event) : (s.emit e).rxbuf = s.rxbuf := rfl
@[simp] theorem State.emit_seq (s : State) (e : Event) : (s.emit e).seq = s.seq := rfl
@[simp] theorem State.emit_params (s : State) (e : Event) : (s.emit e).params = s.params := rfl
@[simp] theorem State.emit_requests (s : State) (e : Event) : (s.emit e).requests = s.requests := rfl
@[simp] theorem State.emit_responses (s : State) (e : Event) : (s.emit e).responses = s.responses := rfl
@[simp] theorem State.emit_script (s : State) (e : Event) : (s.emit e).script = s.script := rfl
@[simp] theorem State.emit_oracle (s : State) (e : Event) : (s.emit e).oracle = s.oracle := rfl
@[simp] theorem State.emit_trace (s : State) (e : Event) : (s.emit e).trace = s.trace ++ [e] := rfl
@[simp] theorem State.emit_nextReply (s : State) (e : Event) : (s.emit e).nextReply = s.nextReply := rfl

/-! `State.afterWrite` -/

@[simp] theorem State.afterWrite_acc (s : State) (d : BusAddr) (B : List Byte) :
    (s.afterWrite d B).acc = s.acc := rfl
@[simp] theorem State.afterWrite_pst (s : State) (d : BusAddr) (B : List Byte) :
    (s.afterWrite d B).pst = s.pst := rfl
@[simp] theorem State.afterWrite_retry (s : State) (d : BusAddr) (B : List Byte) :
    (s.afterWrite d B).retry = s.retry := rfl
@[simp] theorem State.afterWrite_cur (s : State) (d : BusAddr) (B : List Byte) :
    (s.afterWrite d B).cur = s.cur := rfl
@[simp] theorem State.afterWrite_total (s : State) (d : BusAddr) (B : List Byte) :
    (s.afterWrite d B).total = s.total := rfl
@[simp] theorem State.afterWrite_txbuf (s : State) (d : BusAddr) (B : List Byte) :
    (s.afterWrite d B).txbuf = s.txbuf := rfl
@[simp] theorem State.afterWrite_txlen (s : State) (d : BusAddr) (B : List Byte) :
    (s.afterWrite d B).txlen = s.txlen := rfl
@[simp] theorem State.afterWrite_rxbuf (s : State) (d : BusAddr) (B : List Byte) :
    (s.afterWrite d B).rxbuf = s.rxbuf := rfl
@[simp] theorem State.afterWrite_seq (s : State) (d : BusAddr) (B : List Byte) :
    (s.afterWrite d B).seq = s.seq := rfl
@[simp] theorem State.afterWrite_params (s : State) (d : BusAddr) (B : List Byte) :
    (s.afterWrite d B).params = s.params := rfl
@[simp] theorem State.afterWrite_requests (s : State) (d : BusAddr) (B : List Byte) :
    (s.afterWrite d B).requests = s.requests := rfl
@[simp] theorem State.afterWrite_responses (s : State) (d : BusAddr) (B : List Byte) :
    (s.afterWrite d B).responses = s.responses := rfl
@[simp] theorem State.afterWrite_script (s : State) (d : BusAddr) (B : List Byte) :
    (s.afterWrite d B).script = s.script.tail := rfl
@[simp] theorem State.afterWrite_oracle (s : State) (d : BusAddr) (B : List Byte) :
    (s.afterWrite d B).oracle = if s.script.isEmpty then s.oracle + 1 else s.oracle := rfl
@[simp] theorem State.afterWrite_trace (s : State) (d : BusAddr) (B : List Byte) :
    (s.afterWrite d B).trace = s.trace ++ [.wr d B (writeResultOf s.nextReply)] := rfl

/-! `State.afterRead` -/

@[simp] theorem State.afterRead_acc (s : State) (d : BusAddr) (n : Nat) : (s.afterRead d n).acc = s.acc := rfl
@[simp] theorem State.afterRead_pst (s : State) (d : BusAddr) (n : Nat) : (s.afterRead d n).pst = s.pst := rfl
@[simp] theorem State.afterRead_retry (s : State) (d : BusAddr) (n : Nat) : (s.afterRead d n).retry = s.retry := rfl
@[simp] theorem State.afterRead_cur (s : State) (d : BusAddr) (n : Nat) : (s.afterRead d n).cur = s.cur := rfl
@[simp] theorem State.afterRead_total (s : State) (d : BusAddr) (n : Nat) : (s.afterRead d n).total = s.total := rfl
@[simp] theorem State.afterRead_txbuf (s : State) (d : BusAddr) (n : Nat) : (s.afterRead d n).txbuf = s.txbuf := rfl
@[simp] theorem State.afterRead_txlen (s : State) (d : BusAddr) (n : Nat) : (s.afterRead d n).txlen = s.txlen := rfl
@[simp] theorem State.afterRead_rxbuf (s : State) (d : BusAddr) (n : Nat) : (s.afterRead d n).rxbuf = s.rxbuf := rfl
@[simp] theorem State.afterRead_seq (s : State) (d : BusAddr) (n : Nat) : (s.afterRead d n).seq = s.seq := rfl
@[simp] theorem State.afterRead_params (s : State) (d : BusAddr) (n : Nat) :
    (s.afterRead d n).params = s.params := rfl
@[simp] theorem State.afterRead_requests (s : State) (d : BusAddr) (n : Nat) :
    (s.afterRead d n).requests = s.requests := rfl
@[simp] theorem State.afterRead_responses (s : State) (d : BusAddr) (n : Nat) :
    (s.afterRead d n).responses = s.responses := rfl
@[simp] theorem State.afterRead_script (s : State) (d : BusAddr) (n : Nat) :
    (s.afterRead d n).script = s.script.tail := rfl
@[simp] theorem State.afterRead_oracle (s : State) (d : BusAddr) (n : Nat) :
    (s.afterRead d n).oracle = if s.script.isEmpty then s.oracle + 1 else s.oracle := rfl
@[simp] theorem State.afterRead_trace (s : State) (d : BusAddr) (n : Nat) :
    (s.afterRead d n).trace = s.trace ++ [.rd d n s.nextReply] := rfl

/-! `State.delay` -/

@[simp] theorem State.delay_acc (s : State) (t : Duration) : (s.delay t).acc = s.acc := rfl
@[simp] theorem State.delay_pst (s : State) (t : Duration) : (s.delay t).pst = s.pst := rfl
@[simp] theorem State.delay_retry (s : State) (t : Duration) : (s.delay t).retry = s.retry := rfl
@[simp] theorem State.delay_cur (s : State) (t : Duration) : (s.delay t).cur = s.cur := rfl
@[simp] theorem State.delay_total (s : State) (t : Duration) : (s.delay t).total = s.total := rfl
@[simp] theorem State.delay_txbuf (s : State) (t : Duration) : (s.delay t).txbuf = s.txbuf := rfl
@[simp] theorem State.delay_txlen (s : State) (t : Duration) : (s.delay t).txlen = s.txlen := rfl
@[simp] theorem State.delay_rxbuf (s : State) (t : Duration) : (s.delay t).rxbuf = s.rxbuf := rfl
@[simp] theorem State.delay_seq (s : State) (t : Duration) : (s.delay t).seq = s.seq := rfl
@[simp] theorem State.delay_params (s : State) (t : Duration) : (s.delay t).params = s.params := rfl
@[simp] theorem State.delay_requests (s : State) (t : Duration) : (s.delay t).requests = s.requests := rfl
@[simp] theorem State.delay_responses (s : State) (t : Duration) : (s.delay t).responses = s.responses := rfl
@[simp] theorem State.delay_script (s : State) (t : Duration) : (s.delay t).script = s.script := rfl
@[simp] theorem State.delay_oracle (s : State) (t : Duration) : (s.delay t).oracle = s.oracle := rfl
@[simp] theorem State.delay_trace (s : State) (t : Duration) : (s.delay t).trace = s.trace ++ [.dl t] := rfl
@[simp] theorem State.delay_nextReply (s : State) (t : Duration) : (s.delay t).nextReply = s.nextReply := rfl

/-! `State.respond` -/

@[simp] theorem State.respond_acc (s : State) (r : Response) : (s.respond r).acc = s.acc := rfl
@[simp] theorem State.respond_pst (s : State) (r : Response) : (s.respond r).pst = s.pst := rfl
@[simp] theorem State.respond_retry (s : State) (r : Response) : (s.respond r).retry = s.retry := rfl
@[simp] theorem State.respond_cur (s : State) (r : Response) : (s.respond r).cur = s.cur := rfl
@[simp] theorem State.respond_total (s : State) (r : Response) : (s.respond r).total = s.total := rfl
@[simp] theorem State.respond_txbuf (s : State) (r : Response) : (s.respond r).txbuf = s.txbuf := rfl
@[simp] theorem State.respond_txlen (s : State) (r : Response) : (s.respond r).txlen = s.txlen := rfl
@[simp] theorem State.respond_rxbuf (s : State) (r : Response) : (s.respond r).rxbuf = s.rxbuf := rfl
@[simp] theorem State.respond_seq (s : State) (r : Response) : (s.respond r).seq = .ready := rfl
@[simp] theorem State.respond_params (s : State) (r : Response) : (s.respond r).params = s.params := rfl
@[simp] theorem State.respond_requests (s : State) (r : Response) : (s.respond r).requests = s.requests := rfl
@[simp] theorem State.respond_responses (s : State) (r : Response) :
    (s.respond r).responses = s.responses ++ [r] := rfl
@[simp] theorem State.respond_script (s : State) (r : Response) : (s.respond r).script = s.script := rfl
@[simp] theorem State.respond_oracle (s : State) (r : Response) : (s.respond r).oracle = s.oracle := rfl
@[simp] theorem State.respond_trace (s : State) (r : Response) : (s.respond r).trace = s.trace := rfl
@[simp] theorem State.respond_nextReply (s : State) (r : Response) : (s.respond r).nextReply = s.nextReply := rfl

/-! `State.takeRequest` -/

@[simp] theorem State.takeRequest_acc (s : State) : s.takeRequest.acc = s.acc := rfl
@[simp] theorem State.takeRequest_pst (s : State) : s.takeRequest.pst = s.pst := rfl
@[simp] theorem State.takeRequest_retry (s : State) : s.takeRequest.retry = s.retry := rfl
@[simp] theorem State.takeRequest_cur (s : State) : s.takeRequest.cur = s.cur := rfl
@[simp] theorem State.takeRequest_total (s : State) : s.takeRequest.total = s.total := rfl
@[simp] theorem State.takeRequest_txbuf (s : State) : s.takeRequest.txbuf = s.txbuf := rfl
@[simp] theorem State.takeRequest_txlen (s : State) : s.takeRequest.txlen = s.txlen := rfl
@[simp] theorem State.takeRequest_rxbuf (s : State) : s.takeRequest.rxbuf = s.rxbuf := rfl
@[simp] theorem State.takeRequest_seq (s : State) : s.takeRequest.seq = s.seq := rfl
@[simp] theorem State.takeRequest_params (s : State) : s.takeRequest.params = s.params := rfl
@[simp] theorem State.takeRequest_requests (s : State) : s.takeRequest.requests = s.requests.tail := rfl
@[simp] theorem State.takeRequest_responses (s : State) : s.takeRequest.responses = s.responses := rfl
@[simp] theorem State.takeRequest_script (s : State) : s.takeRequest.script = s.script := rfl
@[simp] theorem State.takeRequest_oracle (s : State) : s.takeRequest.oracle = s.oracle := rfl
@[simp] theorem State.takeRequest_trace (s : State) : s.takeRequest.trace = s.trace := rfl
@[simp] theorem State.takeRequest_nextReply (s : State) : s.takeRequest.nextReply = s.nextReply := rfl

/-! `State.present` -/

@[simp] theorem State.present_acc (s : State) (Q : List Byte) : (s.present Q).acc = s.acc := rfl
@[simp] theorem State.present_pst (s : State) (Q : List Byte) : (s.present Q).pst = s.pst := rfl
@[simp] theorem State.present_retry (s : State) (Q : List Byte) : (s.present Q).retry = s.retry := rfl
@[simp] theorem State.present_cur (s : State) (Q : List Byte) : (s.present Q).cur = s.cur := rfl
@[simp] theorem State.present_total (s : State) (Q : List Byte) : (s.present Q).total = s.total := rfl
@[simp] theorem State.present_txbuf (s : State) (Q : List Byte) : (s.present Q).txbuf = s.txbuf := rfl
@[simp] theorem State.present_txlen (s : State) (Q : List Byte) : (s.present Q).txlen = s.txlen := rfl
@[simp] theorem State.present_rxbuf (s : State) (Q : List Byte) : (s.present Q).rxbuf = s.rxbuf := rfl
@[simp] theorem State.present_seq (s : State) (Q : List Byte) : (s.present Q).seq = .ready := rfl
@[simp] theorem State.present_params (s : State) (Q : List Byte) : (s.present Q).params = s.params := rfl
@[simp] theorem State.present_requests (s : State) (Q : List Byte) : (s.present Q).requests = Q :: s.requests := rfl
@[simp] theorem State.present_responses (s : State) (Q : List Byte) : (s.present Q).responses = s.responses := rfl
@[simp] theorem State.present_script (s : State) (Q : List Byte) : (s.present Q).script = s.script := rfl
@[simp] theorem State.present_oracle (s : State) (Q : List Byte) : (s.present Q).oracle = s.oracle := rfl
@[simp] theorem State.present_trace (s : State) (Q : List Byte) : (s.present Q).trace = s.trace := rfl
@[simp] theorem State.present_nextReply (s : State) (Q : List Byte) : (s.present Q).nextReply = s.nextReply := rfl

end Sys2Proof.Machine
end

