-- ==== Sys2Proof/Laws/Ops.lean ====
section
/-! SUPPORT. What each shared operation can do: how results pass from a sub-operation to its caller, what the
transport answers, what one sent pattern leaves, what the checksum test of a response leaves. -/

namespace Sys2Proof.Machine

variable {α β : Type}

/-! Ending and going on. -/

@[simp] theorem Ran.done_state (a : α) (s : State) : (Ran.done a s).state = s := rfl
@[simp] theorem Ran.done_result (a : α) (s : State) : (Ran.done a s).result = .ok a := rfl
@[simp] theorem Ran.raise_state (e : Error) (s : State) : (Ran.raise e s : Ran α).state = s := rfl
@[simp] theorem Ran.raise_result (e : Error) (s : State) : (Ran.raise e s : Ran α).result = .error e := rfl
@[simp] theorem Ran.lose_state (e : Error) (s : State) :
    (Ran.lose e s : Ran α).state = s.withPst .unknown := rfl
@[simp] theorem Ran.lose_result (e : Error) (s : State) : (Ran.lose e s : Ran α).result = .error e := rfl

@[simp] theorem Ran.andThen_done (a : α) (s : State) (f : α → State → Ran β) :
    (Ran.done a s).andThen f = f a s := rfl
@[simp] theorem Ran.andThen_raise (e : Error) (s : State) (f : α → State → Ran β) :
    (Ran.raise e s).andThen f = .raise e s := rfl
@[simp] theorem Ran.andThen_lose (e : Error) (s : State) (f : α → State → Ran β) :
    (Ran.lose e s).andThen f = .lose e s := rfl
@[simp] theorem Ran.thenRun_done (a : α) (s : State) (f : α → State → Run β) :
    (Ran.done a s).thenRun f = f a s := rfl
@[simp] theorem Ran.thenRun_raise (e : Error) (s : State) (f : α → State → Run β) :
    (Ran.raise e s).thenRun f = .ok (.raise e s) := rfl
@[simp] theorem Ran.thenRun_lose (e : Error) (s : State) (f : α → State → Run β) :
    (Ran.lose e s).thenRun f = .ok (.lose e s) := rfl
@[simp] theorem Run.andThen_ok (r : Ran α) (f : α → State → Ran β) :
    Run.andThen (.ok r) f = .ok (r.andThen f) := rfl
@[simp] theorem Run.andThen_error (e : Fault) (f : α → State → Ran β) :
    Run.andThen (.error e : Run α) f = .error e := rfl

/-- A sub-operation ended with a value or raised an error. -/
theorem Ran.cases (r : Ran α) : (∃ a t, r = .done a t) ∨ ∃ e t, r = .raise e t := by
  obtain ⟨t, r⟩ := r
  cases r with
  | error e => exact .inr ⟨e, t, rfl⟩
  | ok a => exact .inl ⟨a, t, rfl⟩

theorem Ran.lose_eq_raise (e : Error) (s : State) :
    (Ran.lose e s : Ran α) = .raise e (s.withPst .unknown) := rfl

@[simp] theorem finish_done (v : List Byte) (s : State) :
    finish (.done v s) = .next (s.respond (.ok v)) := rfl
@[simp] theorem finish_raise (e : Error) (s : State) :
    finish (.raise e s) = .next (s.respond (.error e)) := rfl
@[simp] theorem finish_lose (e : Error) (s : State) :
    finish (.lose e s) = .next ((s.withPst .unknown).respond (.error e)) := rfl
@[simp] theorem finishRun_ok (r : Ran (List Byte)) : finishRun (.ok r) = finish r := rfl
@[simp] theorem finishRun_error (f : Fault) : finishRun (.error f) = .fault f := rfl

/-- An operation that cannot fault always gives a next state, READY, with one more response. -/
theorem finish_next (r : Ran (List Byte)) :
    finish r = .next (r.state.respond (Response.ofResult r.result)) := rfl

@[simp] theorem returnUnit_done (s : State) : returnUnit (.done () s) = .done [] s := rfl
@[simp] theorem returnUnit_raise (e : Error) (s : State) : returnUnit (.raise e s) = .raise e s := rfl
@[simp] theorem returnUnit_lose (e : Error) (s : State) : returnUnit (.lose e s) = .lose e s := rfl

/-! The transport. -/

theorem State.nextReply_cons {s : State} {r : BusReply} {rest : List BusReply} (h : s.script = r :: rest) :
    s.nextReply = r := by
  simp [State.nextReply, h]

theorem State.nextReply_nil {s : State} (h : s.script = []) : s.nextReply = Config.busReply s.oracle := by
  simp [State.nextReply, h]

@[simp] theorem State.afterWrite_nextReply (s : State) (d : BusAddr) (B : List Byte) :
    (s.afterWrite d B).nextReply = s.dropReply.nextReply := rfl

@[simp] theorem State.afterRead_nextReply (s : State) (d : BusAddr) (n : Nat) :
    (s.afterRead d n).nextReply = s.dropReply.nextReply := rfl

/-- A write that the transport reports done. -/
theorem send_ok {addr : BusAddr} {B : List Byte} {s : State} (h : writeResultOf s.nextReply = .ok) :
    send addr B s = .done () (s.afterWrite addr B) := by
  simp [send, h]

/-- A write that fails: `PST` Unknown, TransportError. -/
theorem send_err {addr : BusAddr} {B : List Byte} {s : State} (h : writeResultOf s.nextReply = .err) :
    send addr B s = .lose .transportError (s.afterWrite addr B) := by
  simp [send, h]

/-- All that `send` can do. -/
theorem send_cases (addr : BusAddr) (B : List Byte) (s : State) :
    (writeResultOf s.nextReply = .ok ∧ send addr B s = .done () (s.afterWrite addr B)) ∨
    (writeResultOf s.nextReply = .err ∧ send addr B s = .lose .transportError (s.afterWrite addr B)) := by
  cases h : writeResultOf s.nextReply with
  | ok => exact .inl ⟨rfl, send_ok h⟩
  | err => exact .inr ⟨rfl, send_err h⟩

/-! The checksum test of a response. -/

/-- All that `checkFrame` can do: `ACC` holds the computed checksum either way. -/
theorem checkFrame_eq (L : Nat) (raw : List Byte) (s : State) :
    checkFrame L raw s =
      if trailer raw L = crc16 (coveredPart raw L)
      then .done (payloadPart raw L) (s.withAcc (crc16 (coveredPart raw L)))
      else .raise .checksumMismatch (s.withAcc (crc16 (coveredPart raw L))) := by
  unfold checkFrame
  split <;> simp_all

/-- The bits of `{b, a}`. -/
theorem getLsbD_fromLe16 (a b : Byte) (i : Nat) :
    (fromLe16 a b).getLsbD i = if i < 8 then a.getLsbD i else b.getLsbD (i - 8) :=
  (BitVec.getLsbD_append (x := b) (y := a) (i := i)).trans (by split <;> simp_all)

/-- A value given by `le16` reads back by `fromLe16`. -/
@[simp] theorem fromLe16_le16 (v : Half) : fromLe16 (lo8 v) (hi8 v) = v := by
  apply BitVec.eq_of_getLsbD_eq
  intro i hi
  rw [getLsbD_fromLe16]
  split
  · simp [lo8, *]
  · have h : i - 8 < 8 := by omega
    rw [hi8, BitVec.getLsbD_extractLsb']
    simp [h, show 8 + (i - 8) = i by omega]

@[simp] theorem lo8_fromLe16 (a b : Byte) : lo8 (fromLe16 a b) = a := by
  apply BitVec.eq_of_getLsbD_eq
  intro i hi
  rw [lo8, BitVec.getLsbD_extractLsb', getLsbD_fromLe16]
  simp [hi]

@[simp] theorem hi8_fromLe16 (a b : Byte) : hi8 (fromLe16 a b) = b := by
  apply BitVec.eq_of_getLsbD_eq
  intro i hi
  rw [hi8, BitVec.getLsbD_extractLsb', getLsbD_fromLe16]
  simp [hi]

end Sys2Proof.Machine
end

