-- ==== Sys2Proof/Laws/PerInstr.lean ====
section
/-! SUPPORT. The family PacketLength, a statement about every instruction as syntax: how many bytes it has, and that
the length the decoder computes from the bytes of a request is that number (30_encoding.md section 2). -/

open Sys2Proof Sys2Proof.Machine

/-- The number of bytes the format of an instruction gives it (30_encoding.md R81 to R88, R90, R91). -/
def Sys2Proof.Laws.PacketLength.total : Instr → Nat
  | .crcBegin => 1
  | .crcUpdate bytes => 2 + bytes.length
  | .crcEnd => 1
  | .wake => 1
  | .idle => 1
  | .sleep => 1
  | .encode _ _ _ data => 6 + data.length
  | .decode _ raw => 3 + raw.length
  | .receive _ => 2
  | .execute _ _ _ _ data => 7 + data.length
  | .zoneRead _ _ _ => 5
  | .zoneWrite _ _ length _ => 5 + length.toNat
  | .wireCommandFrame _ _ _ data => 8 + data.length
  | .wireWakePulse => 1
  | .wireIdleByte => 1
  | .wireSleepByte => 1
  | .wireResponseFrame _ payload _ => 3 + payload.length

/-- The bytes of a well-formed instruction are as many as its format says; of a host request the decoder's own
length computation finds that number. -/
def Sys2Proof.Laws.PacketLength.Statement (i : Instr) : Prop :=
  WellFormed i → ∀ p : Params,
    (Sys2Proof.encode p i).length = Sys2Proof.Laws.PacketLength.total i ∧
    (isOperation i = true →
      requestLength (Sys2Proof.encode p i) = Sys2Proof.Laws.PacketLength.total i)

theorem Sys2Proof.Laws.PacketLength.crcBegin : Sys2Proof.Laws.PacketLength.Statement .crcBegin :=
  fun _ _ => ⟨rfl, fun _ => rfl⟩

theorem Sys2Proof.Laws.PacketLength.crcUpdate (bytes : List Byte) :
    Sys2Proof.Laws.PacketLength.Statement (.crcUpdate bytes) := by
  intro h p
  have h' : bytes.length ≤ 255 := h
  simp [Sys2Proof.encode, requestLength, lengthByte, Sys2Proof.Laws.PacketLength.total]
  omega

theorem Sys2Proof.Laws.PacketLength.crcEnd : Sys2Proof.Laws.PacketLength.Statement .crcEnd :=
  fun _ _ => ⟨rfl, fun _ => rfl⟩

theorem Sys2Proof.Laws.PacketLength.wake : Sys2Proof.Laws.PacketLength.Statement .wake :=
  fun _ _ => ⟨rfl, fun _ => rfl⟩

theorem Sys2Proof.Laws.PacketLength.idle : Sys2Proof.Laws.PacketLength.Statement .idle :=
  fun _ _ => ⟨rfl, fun _ => rfl⟩

theorem Sys2Proof.Laws.PacketLength.sleep : Sys2Proof.Laws.PacketLength.Statement .sleep :=
  fun _ _ => ⟨rfl, fun _ => rfl⟩

theorem Sys2Proof.Laws.PacketLength.encode (opcode param1 : Byte) (param2 : Half) (data : List Byte) :
    Sys2Proof.Laws.PacketLength.Statement (.encode opcode param1 param2 data) := by
  intro h p
  have h' : data.length ≤ 255 := h
  simp [Sys2Proof.encode, requestLength, lengthByte, le16, Sys2Proof.Laws.PacketLength.total]
  omega

theorem Sys2Proof.Laws.PacketLength.decode (expected : Byte) (raw : List Byte) :
    Sys2Proof.Laws.PacketLength.Statement (.decode expected raw) := by
  intro h p
  have h' : raw.length ≤ 255 := h
  simp [Sys2Proof.encode, requestLength, lengthByte, Sys2Proof.Laws.PacketLength.total]
  omega

theorem Sys2Proof.Laws.PacketLength.receive (total : Byte) :
    Sys2Proof.Laws.PacketLength.Statement (.receive total) :=
  fun _ _ => ⟨rfl, fun _ => rfl⟩

theorem Sys2Proof.Laws.PacketLength.execute (opcode param1 : Byte) (param2 : Half) (expected : Byte)
    (data : List Byte) : Sys2Proof.Laws.PacketLength.Statement (.execute opcode param1 param2 expected data) := by
  intro h p
  have h' : data.length ≤ 255 := h
  simp [Sys2Proof.encode, requestLength, lengthByte, le16, Sys2Proof.Laws.PacketLength.total]
  omega

theorem Sys2Proof.Laws.PacketLength.zoneRead (zone : Byte) (address : Half) (length : Byte) :
    Sys2Proof.Laws.PacketLength.Statement (.zoneRead zone address length) :=
  fun _ _ => ⟨rfl, fun _ => rfl⟩

theorem Sys2Proof.Laws.PacketLength.zoneWrite (zone : Byte) (address : Half) (length : Byte)
    (buffer : List Byte) : Sys2Proof.Laws.PacketLength.Statement (.zoneWrite zone address length buffer) := by
  intro h p
  have h' : buffer.length = length.toNat := h
  simp [Sys2Proof.encode, requestLength, le16, Sys2Proof.Laws.PacketLength.total]
  omega

theorem Sys2Proof.Laws.PacketLength.wireCommandFrame (opcode param1 : Byte) (param2 : Half)
    (data : List Byte) :
    Sys2Proof.Laws.PacketLength.Statement (.wireCommandFrame opcode param1 param2 data) := by
  intro _ p
  refine ⟨?_, fun h => ?_⟩
  · simp [Sys2Proof.encode, encodeFrame, frameBody, le16, Sys2Proof.Laws.PacketLength.total]
    omega
  · simp [isOperation, channelOf] at h

theorem Sys2Proof.Laws.PacketLength.wireWakePulse :
    Sys2Proof.Laws.PacketLength.Statement .wireWakePulse :=
  fun _ _ => ⟨rfl, fun h => absurd h (by decide)⟩

theorem Sys2Proof.Laws.PacketLength.wireIdleByte :
    Sys2Proof.Laws.PacketLength.Statement .wireIdleByte :=
  fun _ _ => ⟨rfl, fun h => absurd h (by decide)⟩

theorem Sys2Proof.Laws.PacketLength.wireSleepByte :
    Sys2Proof.Laws.PacketLength.Statement .wireSleepByte :=
  fun _ _ => ⟨rfl, fun h => absurd h (by decide)⟩

theorem Sys2Proof.Laws.PacketLength.wireResponseFrame (count : Byte) (payload : List Byte)
    (checksum : Half) :
    Sys2Proof.Laws.PacketLength.Statement (.wireResponseFrame count payload checksum) := by
  intro _ p
  refine ⟨?_, fun h => ?_⟩
  · simp [Sys2Proof.encode, le16, Sys2Proof.Laws.PacketLength.total]
    omega
  · simp [isOperation, channelOf] at h
end

