-- ==== Sys2Proof/Laws/Power.lean ====
section
/-! SUPPORT. What the power operations do, one lemma for each way they can go (41_power.md R141, R143, R145). -/

namespace Sys2Proof.Machine

/-- The state in which step W3 has its answer: pulse written, delay passed, four bytes read. -/
def wakeRead (p : Parent) (s : State) : State :=
  (((((s.goto (.w1 p)).afterWrite s.params.wakeAddr wakePulse).goto (.w2 p)).delay s.params.tWhi).goto
    (.w3 p)).afterRead s.params.devAddr wakeRspLen

/-- The pulse write fails: nothing more is done (R142(h)). -/
theorem wakeW1_pulseFails {p : Parent} {s : State} (h : writeResultOf s.nextReply = .err) :
    wakeW1 p s = .lose .transportError ((s.goto (.w1 p)).afterWrite s.params.wakeAddr wakePulse) := by
  rw [wakeW1, send_err (by exact h)]
  rfl

/-- After the pulse, what W3 makes of the answer to its read. -/
theorem wakeW1_afterPulse {p : Parent} {s : State} (h : writeResultOf s.nextReply = .ok) :
    wakeW1 p s =
      match s.dropReply.nextReply with
      | .err => .lose .transportError (wakeRead p s)
      | .ok [c0, c1, c2, c3] => wakeW4 p c0 c1 ((wakeRead p s).storeRx 0 [c0, c1, c2, c3])
      | .ok _ => .lose .wakeVerificationFailed (wakeRead p s) := by
  rw [wakeW1, send_ok (by exact h)]
  rfl

/-- The wake read fails. -/
theorem wakeW1_readFails {p : Parent} {s : State} (h : writeResultOf s.nextReply = .ok)
    (hr : s.dropReply.nextReply = .err) : wakeW1 p s = .lose .transportError (wakeRead p s) := by
  rw [wakeW1_afterPulse h, hr]

/-- The wake read gives a number of bytes other than 4 (R142(e)). -/
theorem wakeW1_wrongLength {p : Parent} {s : State} {C : List Byte}
    (h : writeResultOf s.nextReply = .ok) (hr : s.dropReply.nextReply = .ok C) (hC : C.length ≠ 4) :
    wakeW1 p s = .lose .wakeVerificationFailed (wakeRead p s) := by
  rw [wakeW1_afterPulse h, hr]
  split
  · rename_i hh
    cases hh
  · rename_i hh
    cases hh
    simp at hC
  · rfl

/-- The wake read gives four bytes: step W4 decides. -/
theorem wakeW1_response {p : Parent} {s : State} {c0 c1 c2 c3 : Byte}
    (h : writeResultOf s.nextReply = .ok) (hr : s.dropReply.nextReply = .ok [c0, c1, c2, c3]) :
    wakeW1 p s = wakeW4 p c0 c1 ((wakeRead p s).storeRx 0 [c0, c1, c2, c3]) := by
  rw [wakeW1_afterPulse h, hr]

/-- Step W4: `ACC` holds the checksum of the first two bytes either way. -/
theorem wakeW4_eq (p : Parent) (c0 c1 : Byte) (s : State) :
    wakeW4 p c0 c1 s =
      if c1 = wakeAck ∧ crc16 [c0, c1] = wakeCrc
      then .done () ((((s.goto (.w4 p c0 c1)).withAcc (crc16 [c0, c1])).goto (.w5 p)).withPst .awake)
      else .lose .wakeVerificationFailed ((s.goto (.w4 p c0 c1)).withAcc (crc16 [c0, c1])) := by
  have h : ∀ t : State, (if c1 ≠ wakeAck ∨ crc16 [c0, c1] ≠ wakeCrc
      then Ran.lose .wakeVerificationFailed t else wakeW5 p t) =
      if c1 = wakeAck ∧ crc16 [c0, c1] = wakeCrc then wakeW5 p t
      else Ran.lose .wakeVerificationFailed t := by
    intro t
    by_cases h1 : c1 = wakeAck <;> by_cases h2 : crc16 [c0, c1] = wakeCrc <;> simp [h1, h2]
  exact h ((s.goto (.w4 p c0 c1)).withAcc (crc16 [c0, c1]))

/-- Four bytes come in, or not: the ways a list can have length 4. -/
theorem four_bytes (C : List Byte) : C.length ≠ 4 ∨ ∃ c0 c1 c2 c3, C = [c0, c1, c2, c3] := by
  rcases C with _ | ⟨c0, _ | ⟨c1, _ | ⟨c2, _ | ⟨c3, _ | ⟨c4, C⟩⟩⟩⟩⟩ <;> simp

/-- All that WAKE can do. -/
theorem wakeW1_cases (p : Parent) (s : State) :
    (writeResultOf s.nextReply = .err ∧ wakeW1 p s =
      .lose .transportError ((s.goto (.w1 p)).afterWrite s.params.wakeAddr wakePulse)) ∨
    (writeResultOf s.nextReply = .ok ∧
      ((s.dropReply.nextReply = .err ∧ wakeW1 p s = .lose .transportError (wakeRead p s)) ∨
       (∃ C, s.dropReply.nextReply = .ok C ∧ C.length ≠ 4 ∧
          wakeW1 p s = .lose .wakeVerificationFailed (wakeRead p s)) ∨
       ∃ c0 c1 c2 c3, s.dropReply.nextReply = .ok [c0, c1, c2, c3] ∧
          wakeW1 p s = wakeW4 p c0 c1 ((wakeRead p s).storeRx 0 [c0, c1, c2, c3]))) := by
  cases h : writeResultOf s.nextReply with
  | err => exact .inl ⟨rfl, wakeW1_pulseFails h⟩
  | ok =>
    refine .inr ⟨rfl, ?_⟩
    cases hr : s.dropReply.nextReply with
    | err => exact .inl ⟨rfl, wakeW1_readFails h hr⟩
    | ok C =>
      rcases four_bytes C with hC | ⟨c0, c1, c2, c3, rfl⟩
      · exact .inr (.inl ⟨C, rfl, hC, wakeW1_wrongLength h hr hC⟩)
      · exact .inr (.inr ⟨c0, c1, c2, c3, rfl, wakeW1_response h hr⟩)

/-- All that IDLE can do (R143). -/
theorem idleI1_cases (p : Parent) (received : List Byte) (s : State) :
    (writeResultOf s.nextReply = .ok ∧ idleI1 p received s =
      .done () ((((s.goto (.i1 p received)).afterWrite s.params.devAddr [s.params.waIdle]).goto
        (.i2 p received)).withPst .idle)) ∨
    (writeResultOf s.nextReply = .err ∧ idleI1 p received s =
      .lose .transportError ((s.goto (.i1 p received)).afterWrite s.params.devAddr [s.params.waIdle])) := by
  cases h : writeResultOf s.nextReply with
  | ok =>
    refine .inl ⟨rfl, ?_⟩
    rw [idleI1, send_ok (by exact h)]
    rfl
  | err =>
    refine .inr ⟨rfl, ?_⟩
    rw [idleI1, send_err (by exact h)]
    rfl

/-- All that SLEEP can do (R145). -/
theorem sleepS1_cases (s : State) :
    (writeResultOf s.nextReply = .ok ∧ sleepS1 s =
      .done () ((((s.goto .s1).afterWrite s.params.devAddr [s.params.waSleep]).goto .s2).withPst
        .sleeping)) ∨
    (writeResultOf s.nextReply = .err ∧ sleepS1 s =
      .lose .transportError ((s.goto .s1).afterWrite s.params.devAddr [s.params.waSleep])) := by
  cases h : writeResultOf s.nextReply with
  | ok =>
    refine .inl ⟨rfl, ?_⟩
    rw [sleepS1, send_ok (by exact h)]
    rfl
  | err =>
    refine .inr ⟨rfl, ?_⟩
    rw [sleepS1, send_err (by exact h)]
    rfl

end Sys2Proof.Machine
end

