-- ==== Sys2Proof/Laws/Receive.lean ====
section
/-! SUPPORT. The chunked receive: what one pass of the loop does, that the loop's fuel is never used up, and so that
`receiveV2` is the while loop of 43_transport.md R186; and the induction over its passes. -/

namespace Sys2Proof.Machine

/-! One pass. -/

/-- A read counts as good with 1 to `n` bytes (43_transport.md R190). -/
abbrev goodChunk (s : State) (C : List Byte) : Prop := 1 ≤ C.length ∧ C.length ≤ chunkSize s

/-- Step V3 with a good chunk. -/
theorem receiveV3_good {p : Parent} {C : List Byte} {s : State} (h : goodChunk s C) :
    receiveV3 p (.ok C) s =
      .done () (((s.goto (.v3 p (.ok C))).storeRx s.cur.toNat C).advance C.length) := by
  simp only [receiveV3]
  rw [if_pos h]
  rfl

/-- Step V3 with bytes that are no good chunk. -/
theorem receiveV3_bad {p : Parent} {C : List Byte} {s : State} (h : ¬ goodChunk s C) :
    receiveV3 p (.ok C) s = receiveFailed (s.goto (.v3 p (.ok C))) := by
  simp only [receiveV3]
  rw [if_neg h]

/-- Step V3 with `Err`. -/
theorem receiveV3_err (p : Parent) (s : State) :
    receiveV3 p .err s = receiveFailed (s.goto (.v3 p .err)) := rfl

/-- All that step V3 can do: a good chunk, a failed read that is counted, or the 20th failed read. -/
theorem receiveV3_cases (p : Parent) (r : BusReply) (s : State) :
    (∃ C, r = .ok C ∧ goodChunk s C ∧
      receiveV3 p r s = .done () (((s.goto (.v3 p r)).storeRx s.cur.toNat C).advance C.length)) ∨
    ((∀ C, r = .ok C → ¬ goodChunk s C) ∧ s.retry + 1 ≠ retryMax ∧
      receiveV3 p r s = .done () (s.goto (.v3 p r)).countFailure) ∨
    ((∀ C, r = .ok C → ¬ goodChunk s C) ∧ s.retry + 1 = retryMax ∧
      receiveV3 p r s = .lose .receiveExhausted (s.goto (.v3 p r)).countFailure.forgetRx) := by
  have key : ∀ t : State, receiveFailed t =
      if t.retry + 1 = retryMax then .lose .receiveExhausted t.countFailure.forgetRx
      else .done () t.countFailure := fun t => rfl
  have bad : receiveV3 p r s = receiveFailed (s.goto (.v3 p r)) →
      (∀ C, r = .ok C → ¬ goodChunk s C) →
      ((∀ C, r = .ok C → ¬ goodChunk s C) ∧ s.retry + 1 ≠ retryMax ∧
        receiveV3 p r s = .done () (s.goto (.v3 p r)).countFailure) ∨
      ((∀ C, r = .ok C → ¬ goodChunk s C) ∧ s.retry + 1 = retryMax ∧
        receiveV3 p r s = .lose .receiveExhausted (s.goto (.v3 p r)).countFailure.forgetRx) := by
    intro h1 h2
    rw [h1, key]
    by_cases h3 : s.retry + 1 = retryMax
    · exact .inr ⟨h2, h3, if_pos h3⟩
    · exact .inl ⟨h2, h3, if_neg h3⟩
  cases r with
  | err => exact .inr (bad rfl (fun C h => by cases h))
  | ok C =>
    by_cases h : goodChunk s C
    · exact .inl ⟨C, rfl, h, receiveV3_good h⟩
    · exact .inr (bad (receiveV3_bad h) (fun D hD => by cases hD; exact h))

/-- A good chunk never overruns `TOTAL` (43_transport.md R190): the cursor moves by its length. -/
theorem cur_advance {s : State} {C : List Byte} (h : goodChunk s C) :
    (s.cur + BitVec.ofNat 8 C.length).toNat = s.cur.toNat + C.length ∧
    s.cur.toNat + C.length ≤ s.total.toNat := by
  have h2 := h.2
  have ht := s.total.isLt
  simp only [chunkSize, chunkMax] at h2
  simp only [BitVec.toNat_add, BitVec.toNat_ofNat]
  omega

/-! The fuel. -/

/-- How many more failed reads `RETRY`, five bits wide, can count before it reaches 20. -/
def retryBudget (r : BitVec 5) : Nat := if r = retryMax then 32 else (retryMax - r).toNat

theorem retryBudget_le (r : BitVec 5) : retryBudget r ≤ 32 := by
  revert r
  decide

theorem retryBudget_step (r : BitVec 5) (h : r + 1 ≠ retryMax) : retryBudget (r + 1) < retryBudget r := by
  revert r
  decide

/-- What every pass of the loop lowers. -/
def receiveMeasure (s : State) : Nat := (s.total.toNat - s.cur.toNat) + retryBudget s.retry

/-- A pass that goes on lowers the measure and leaves `TOTAL` alone. -/
theorem receiveV3_progress {p : Parent} {r : BusReply} {s t : State}
    (h : receiveV3 p r s = .done () t) :
    receiveMeasure t < receiveMeasure s ∧ t.total = s.total := by
  rcases receiveV3_cases p r s with ⟨C, -, hC, he⟩ | ⟨-, hr, he⟩ | ⟨-, -, he⟩
  · rw [he] at h
    injection h with h
    subst h
    obtain ⟨h1, h2⟩ := cur_advance hC
    have := hC.1
    refine ⟨?_, rfl⟩
    simp only [receiveMeasure, State.advance_total, State.advance_cur, State.advance_retry,
      State.storeRx_total, State.storeRx_cur, State.storeRx_retry, State.goto_total, State.goto_cur,
      State.goto_retry, h1]
    omega
  · rw [he] at h
    injection h with h
    subst h
    have := retryBudget_step _ hr
    refine ⟨?_, rfl⟩
    simp only [receiveMeasure, State.countFailure_total, State.countFailure_cur,
      State.countFailure_retry, State.goto_total, State.goto_cur, State.goto_retry]
    omega
  · rw [he] at h
    cases congrArg Ran.result h

theorem receiveLoop_succ (fuel : Nat) (p : Parent) (s : State) :
    receiveLoop (fuel + 1) p s =
      if s.cur < s.total then
        (receiveV3 p s.nextReply ((s.goto (.v2 p)).afterRead s.params.devAddr (chunkSize s))).andThen
          fun _ u => receiveLoop fuel p u
      else .done () (s.goto (.v2 p)) := rfl

/-- Enough fuel is as good as any other amount that is enough. -/
theorem receiveLoop_fuel (p : Parent) (n m : Nat) (s : State) (hn : receiveMeasure s < n)
    (hm : receiveMeasure s < m) : receiveLoop n p s = receiveLoop m p s := by
  induction n generalizing m s with
  | zero => omega
  | succ n ih =>
    cases m with
    | zero => omega
    | succ m =>
      rw [receiveLoop_succ, receiveLoop_succ]
      split
      · rcases Ran.cases (receiveV3 p s.nextReply
          ((s.goto (.v2 p)).afterRead s.params.devAddr (chunkSize s))) with ⟨a, t, h⟩ | ⟨e, t, h⟩
        · rw [h]
          have hp := (receiveV3_progress h).1
          have hs : receiveMeasure ((s.goto (.v2 p)).afterRead s.params.devAddr (chunkSize s))
              = receiveMeasure s := rfl
          simp only [Ran.andThen_done]
          exact ih m t (by omega) (by omega)
        · rw [h]
          rfl
      · rfl

theorem receiveFuel_enough (s : State) : receiveMeasure s < receiveFuel s := by
  have := retryBudget_le s.retry
  simp only [receiveMeasure, receiveFuel]
  omega

/-- `receiveV2` is the while loop of R186: while `CUR < TOTAL`, read a chunk, do step V3 and go round again; then
step V4. -/
theorem receiveV2_eq (p : Parent) (s : State) :
    receiveV2 p s =
      if s.cur < s.total then
        (receiveV3 p s.nextReply ((s.goto (.v2 p)).afterRead s.params.devAddr (chunkSize s))).thenRun
          fun _ t => receiveV2 p t
      else receiveV4 p (s.goto (.v2 p)) := by
  rw [receiveV2, show receiveFuel s = (s.total.toNat + 33) + 1 from rfl, receiveLoop_succ]
  split
  · rcases Ran.cases (receiveV3 p s.nextReply
      ((s.goto (.v2 p)).afterRead s.params.devAddr (chunkSize s))) with ⟨a, t, h⟩ | ⟨e, t, h⟩
    · have hp := receiveV3_progress h
      have hs : receiveMeasure ((s.goto (.v2 p)).afterRead s.params.devAddr (chunkSize s))
          = receiveMeasure s := rfl
      have hf := receiveFuel_enough s
      have hft := receiveFuel_enough t
      simp only [receiveFuel] at hf
      rw [h]
      simp only [Ran.andThen_done, Ran.thenRun_done, receiveV2]
      rw [receiveLoop_fuel p (s.total.toNat + 33) (receiveFuel t) t (by omega) hft]
    · rw [h]
      rfl
  · rfl

/-- A pass of the loop that delivers a good chunk. -/
theorem receiveV2_good {p : Parent} {s : State} {C : List Byte} (hlt : s.cur < s.total)
    (hr : s.nextReply = .ok C) (hC : goodChunk s C) :
    receiveV2 p s = receiveV2 p
      (((((s.goto (.v2 p)).afterRead s.params.devAddr (chunkSize s)).goto (.v3 p (.ok C))).storeRx
        s.cur.toNat C).advance C.length) := by
  rw [receiveV2_eq, if_pos hlt, hr, receiveV3_good (by exact hC)]
  rfl

/-- A pass of the loop whose read fails and is not the 20th. -/
theorem receiveV2_failed {p : Parent} {s : State} (hlt : s.cur < s.total)
    (hr : ∀ C, s.nextReply = .ok C → ¬ goodChunk s C) (h20 : s.retry + 1 ≠ retryMax) :
    receiveV2 p s = receiveV2 p
      ((((s.goto (.v2 p)).afterRead s.params.devAddr (chunkSize s)).goto
        (.v3 p s.nextReply)).countFailure) := by
  rw [receiveV2_eq, if_pos hlt]
  rcases receiveV3_cases p s.nextReply
    ((s.goto (.v2 p)).afterRead s.params.devAddr (chunkSize s)) with ⟨C, h1, h2, -⟩ | ⟨-, -, h⟩ | ⟨-, h, -⟩
  · exact absurd h2 (hr C h1)
  · rw [h]
    rfl
  · exact absurd h h20

/-- The pass of the loop with the 20th failed read ends the receive (43_transport.md R187, R189). -/
theorem receiveV2_exhausted {p : Parent} {s : State} (hlt : s.cur < s.total)
    (hr : ∀ C, s.nextReply = .ok C → ¬ goodChunk s C) (h20 : s.retry + 1 = retryMax) :
    receiveV2 p s = .ok (.lose .receiveExhausted
      (((((s.goto (.v2 p)).afterRead s.params.devAddr (chunkSize s)).goto
        (.v3 p s.nextReply)).countFailure).forgetRx)) := by
  rw [receiveV2_eq, if_pos hlt]
  rcases receiveV3_cases p s.nextReply
    ((s.goto (.v2 p)).afterRead s.params.devAddr (chunkSize s)) with ⟨C, h1, h2, -⟩ | ⟨-, h, -⟩ | ⟨-, -, h⟩
  · exact absurd h2 (hr C h1)
  · exact absurd h20 h
  · rw [h]
    rfl

/-- The receive has all its bytes. -/
theorem receiveV2_complete {p : Parent} {s : State} (h : ¬ s.cur < s.total) :
    receiveV2 p s = receiveV4 p (s.goto (.v2 p)) := by
  rw [receiveV2_eq, if_neg h]

/-- Induction over the passes of the loop: what holds when the cursor has reached `TOTAL`, and holds before a pass
whenever it holds after it, holds of every state. -/
theorem receive_induction {P : State → Prop} (p : Parent)
    (complete : ∀ s, ¬ s.cur < s.total → P s)
    (pass : ∀ s, s.cur < s.total →
      (∀ t, receiveV3 p s.nextReply ((s.goto (.v2 p)).afterRead s.params.devAddr (chunkSize s)) = .done () t →
        P t) → P s)
    (s : State) : P s := by
  suffices h : ∀ n s, receiveMeasure s < n → P s from h _ s (Nat.lt_succ_self _)
  intro n
  induction n with
  | zero => intro s h; omega
  | succ n ih =>
    intro s h
    by_cases hc : s.cur < s.total
    · refine pass s hc fun t ht => ih t ?_
      have := (receiveV3_progress ht).1
      have hs : receiveMeasure ((s.goto (.v2 p)).afterRead s.params.devAddr (chunkSize s))
          = receiveMeasure s := rfl
      omega
    · exact complete s hc

end Sys2Proof.Machine
end

