-- ==== Sys2Proof/Laws/Steps.lean ====
section
/-! SUPPORT. What the steps of an operation have in common, whatever they are: the parameters, the host's requests and
the responses stay as they are, and the trace grows by events the block may cause. -/

namespace Sys2Proof.Machine

/-- `t` is reached from `s` by steps of one operation. -/
structure Steps (s t : State) : Prop where
  params : t.params = s.params
  requests : t.requests = s.requests
  responses : t.responses = s.responses
  events : ∃ es, t.trace = s.trace ++ es ∧ ∀ e ∈ es, allowedEvent s.params e

theorem Steps.refl (s : State) : Steps s s := ⟨rfl, rfl, rfl, [], by simp, by simp⟩

theorem Steps.trans {s t u : State} (h : Steps s t) (k : Steps t u) : Steps s u := by
  obtain ⟨p1, q1, r1, es, he, ha⟩ := h
  obtain ⟨p2, q2, r2, fs, hf, hb⟩ := k
  refine ⟨p2.trans p1, q2.trans q1, r2.trans r1, es ++ fs, by rw [hf, he, List.append_assoc], ?_⟩
  intro e h
  rcases List.mem_append.mp h with h | h
  · exact ha e h
  · exact p1 ▸ hb e h

/-- A step without an event. -/
theorem Steps.silent {s t : State} (h1 : t.params = s.params) (h2 : t.requests = s.requests)
    (h3 : t.responses = s.responses) (h4 : t.trace = s.trace) : Steps s t :=
  ⟨h1, h2, h3, [], by simp [h4], by simp⟩

theorem Steps.goto (s : State) (q : Seq) : Steps s (s.goto q) := .silent rfl rfl rfl rfl
theorem Steps.withAcc (s : State) (v : Half) : Steps s (s.withAcc v) := .silent rfl rfl rfl rfl
theorem Steps.withPst (s : State) (v : PowerState) : Steps s (s.withPst v) := .silent rfl rfl rfl rfl
theorem Steps.loadTx (s : State) (F : List Byte) : Steps s (s.loadTx F) := .silent rfl rfl rfl rfl
theorem Steps.storeRx (s : State) (a : Nat) (C : List Byte) : Steps s (s.storeRx a C) :=
  .silent rfl rfl rfl rfl
theorem Steps.forgetRx (s : State) : Steps s s.forgetRx := .silent rfl rfl rfl rfl
theorem Steps.startReceive (s : State) (n : Byte) : Steps s (s.startReceive n) := .silent rfl rfl rfl rfl
theorem Steps.advance (s : State) (n : Nat) : Steps s (s.advance n) := .silent rfl rfl rfl rfl
theorem Steps.countFailure (s : State) : Steps s s.countFailure := .silent rfl rfl rfl rfl

/-- A step with one event. -/
theorem Steps.event {s t : State} (e : Event) (h1 : t.params = s.params) (h2 : t.requests = s.requests)
    (h3 : t.responses = s.responses) (h4 : t.trace = s.trace ++ [e]) (ha : allowedEvent s.params e) :
    Steps s t :=
  ⟨h1, h2, h3, [e], h4, by simpa using ha⟩

theorem Steps.afterWrite {s : State} {d : BusAddr} {B : List Byte} (h : sentPattern s.params d B) :
    Steps s (s.afterWrite d B) :=
  .event _ rfl rfl rfl rfl h

theorem Steps.afterRead {s : State} {n : Nat} (h1 : 1 ≤ n) (h2 : n ≤ chunkMax) :
    Steps s (s.afterRead s.params.devAddr n) :=
  .event _ rfl rfl rfl rfl ⟨rfl, h1, h2⟩

theorem Steps.delay {s : State} {t : Duration}
    (h : t = s.params.tWhi ∨ ∃ opcode, t = execDelayOf s.params opcode) : Steps s (s.delay t) :=
  .event _ rfl rfl rfl rfl h

/-! The sub-operations. -/

theorem send_steps {d : BusAddr} {B : List Byte} {s : State} (h : sentPattern s.params d B) :
    Steps s (send d B s).state := by
  rcases send_cases d B s with ⟨-, e⟩ | ⟨-, e⟩ <;> rw [e]
  · exact .afterWrite h
  · exact (Steps.afterWrite h).trans (.withPst _ _)

theorem wakeRead_steps (p : Parent) (s : State) : Steps s (wakeRead p s) :=
  (((((Steps.goto s _).trans (.afterWrite (.inl ⟨rfl, rfl⟩))).trans (.goto _ _)).trans
    (.delay (.inl rfl))).trans (.goto _ _)).trans (.afterRead (by decide) (by decide))

theorem wakeW1_steps (p : Parent) (s : State) : Steps s (wakeW1 p s).state := by
  rcases wakeW1_cases p s with ⟨-, e⟩ | ⟨-, ⟨-, e⟩ | ⟨C, -, -, e⟩ | ⟨c0, c1, c2, c3, -, e⟩⟩ <;> rw [e]
  · exact ((Steps.goto s _).trans (.afterWrite (.inl ⟨rfl, rfl⟩))).trans (.withPst _ _)
  · exact (wakeRead_steps p s).trans (.withPst _ _)
  · exact (wakeRead_steps p s).trans (.withPst _ _)
  · refine ((wakeRead_steps p s).trans (.storeRx _ 0 [c0, c1, c2, c3])).trans ?_
    rw [wakeW4_eq]
    split
    · exact (((Steps.goto _ _).trans (.withAcc _ _)).trans (.goto _ _)).trans (.withPst _ _)
    · exact ((Steps.goto _ _).trans (.withAcc _ _)).trans (.withPst _ _)

theorem idleI1_steps (p : Parent) (received : List Byte) (s : State) :
    Steps s (idleI1 p received s).state := by
  have w : Steps s ((s.goto (.i1 p received)).afterWrite s.params.devAddr [s.params.waIdle]) :=
    (Steps.goto s _).trans (.afterWrite (.inr (.inl ⟨rfl, rfl⟩)))
  rcases idleI1_cases p received s with ⟨-, e⟩ | ⟨-, e⟩ <;> rw [e]
  · exact (w.trans (.goto _ _)).trans (.withPst _ _)
  · exact w.trans (.withPst _ _)

theorem sleepS1_steps (s : State) : Steps s (sleepS1 s).state := by
  have w : Steps s ((s.goto .s1).afterWrite s.params.devAddr [s.params.waSleep]) :=
    (Steps.goto s _).trans (.afterWrite (.inr (.inr (.inl ⟨rfl, rfl⟩))))
  rcases sleepS1_cases s with ⟨-, e⟩ | ⟨-, e⟩ <;> rw [e]
  · exact (w.trans (.goto _ _)).trans (.withPst _ _)
  · exact w.trans (.withPst _ _)

theorem checkFrame_steps (L : Nat) (raw : List Byte) (s : State) :
    Steps s (checkFrame L raw s).state := by
  rw [checkFrame_eq]
  split <;> exact .withAcc _ _

theorem receiveV3_steps (p : Parent) (r : BusReply) (s : State) : Steps s (receiveV3 p r s).state := by
  rcases receiveV3_cases p r s with ⟨C, -, -, e⟩ | ⟨-, -, e⟩ | ⟨-, -, e⟩ <;> rw [e]
  · exact ((Steps.goto s _).trans (.storeRx _ _ _)).trans (.advance _ _)
  · exact (Steps.goto s _).trans (.countFailure _)
  · exact (((Steps.goto s _).trans (.countFailure _)).trans (.forgetRx _)).trans (.withPst _ _)

/-- A read of the loop asks for 1 to 32 bytes. -/
theorem chunkSize_bounds {s : State} (h : s.cur < s.total) : 1 ≤ chunkSize s ∧ chunkSize s ≤ chunkMax := by
  have : s.cur.toNat < s.total.toNat := h
  simp only [chunkSize, chunkMax]
  omega

theorem receiveV2_steps (p : Parent) (s : State) :
    ∀ r, receiveV2 p s = .ok r → Steps s r.state := by
  refine receive_induction (P := fun s => ∀ r, receiveV2 p s = .ok r → Steps s r.state) p ?_ ?_ s
  · intro s h r hr
    rw [receiveV2_complete h, receiveV4] at hr
    split at hr
    · cases hr
      exact (Steps.goto s _).trans (.goto _ _)
    · cases hr
  · intro s hlt ih r hr
    have hb := chunkSize_bounds hlt
    have w : Steps s ((s.goto (.v2 p)).afterRead s.params.devAddr (chunkSize s)) :=
      (Steps.goto s _).trans (.afterRead hb.1 hb.2)
    have v := receiveV3_steps p s.nextReply ((s.goto (.v2 p)).afterRead s.params.devAddr (chunkSize s))
    rw [receiveV2_eq, if_pos hlt] at hr
    rcases Ran.cases (receiveV3 p s.nextReply
      ((s.goto (.v2 p)).afterRead s.params.devAddr (chunkSize s))) with ⟨a, t, h⟩ | ⟨e, t, h⟩
    · rw [h] at hr v
      exact (w.trans v).trans (ih t h r hr)
    · rw [h] at hr v
      cases hr
      exact w.trans v

theorem receiveV1_steps (p : Parent) (total : Byte) (s : State) (r : Ran (List Byte))
    (h : receiveV1 p total s = .ok r) : Steps s r.state :=
  ((Steps.goto s _).trans (.startReceive _ _)).trans (receiveV2_steps p _ r h)

theorem executeE6_steps (c : Command) (received : List Byte) (s : State) :
    Steps s (executeE6 c received s).state := by
  have w := (Steps.goto s (.e6 c received)).trans
    (checkFrame_steps c.expected.toNat received (s.goto (.e6 c received)))
  unfold executeE6
  rcases Ran.cases (checkFrame c.expected.toNat received (s.goto (.e6 c received)))
    with ⟨a, t, h⟩ | ⟨e, t, h⟩
  · rw [h] at w ⊢
    simp only [Ran.andThen_done, returnPayload]
    split
    · exact w
    · exact w.trans (.goto _ _)
  · rw [h] at w ⊢
    exact w

theorem executeE5_steps (c : Command) (received : List Byte) (s : State) :
    Steps s (executeE5 c received s).state := by
  have w := (Steps.goto s (.e5 c received)).trans
    (idleI1_steps (.execute c) received (s.goto (.e5 c received)))
  unfold executeE5 afterIdle
  rcases Ran.cases (idleI1 (.execute c) received (s.goto (.e5 c received))) with ⟨a, t, h⟩ | ⟨e, t, h⟩
  · rw [h] at w ⊢
    exact w.trans (executeE6_steps c received t)
  · rw [h] at w ⊢
    exact w

theorem executeE4_steps (c : Command) (s : State) (r : Ran (List Byte)) (h : executeE4 c s = .ok r) :
    Steps s r.state := by
  unfold executeE4 afterReceive at h
  cases hv : receiveV1 (.execute c) c.expected (s.goto (.e4 c)) with
  | error f =>
    rw [hv] at h
    cases h
  | ok x =>
    have w := (Steps.goto s (.e4 c)).trans (receiveV1_steps _ _ _ x hv)
    rw [hv] at h
    cases h
    rcases Ran.cases x with ⟨a, t, rfl⟩ | ⟨e, t, rfl⟩
    · exact w.trans (executeE5_steps c a t)
    · exact w

theorem executeE3_steps (c : Command) (s : State) (r : Ran (List Byte)) (h : executeE3 c s = .ok r) :
    Steps s r.state :=
  ((Steps.goto s _).trans (.delay (.inr ⟨c.opcode, rfl⟩))).trans (executeE4_steps c _ r h)

theorem executeE2_steps (c : Command) (s : State) (hc : dataFits s.params c.data) (r : Ran (List Byte))
    (h : executeE2 c s = .ok r) : Steps s r.state := by
  let u := ((s.goto (.e2 c)).loadTx (commandFrame c)).withAcc
    (trailer (commandFrame c) (commandFrame c).length)
  have hp : sentPattern u.params s.params.devAddr (commandFrame c) :=
    .inr (.inr (.inr ⟨rfl, c.opcode, c.param1, c.param2, c.data, hc, rfl⟩))
  have w : Steps s (send s.params.devAddr (commandFrame c) u).state :=
    (((Steps.goto s _).trans (.loadTx _ _)).trans (.withAcc _ _)).trans (send_steps hp)
  have h' : (send s.params.devAddr (commandFrame c) u).thenRun (fun _ t => executeE3 c t) = .ok r := h
  rcases Ran.cases (send s.params.devAddr (commandFrame c) u) with ⟨a, t, e⟩ | ⟨er, t, e⟩
  · rw [e] at w h'
    exact w.trans (executeE3_steps c t r h')
  · rw [e] at w h'
    cases h'
    exact w

theorem executeE1_steps (c : Command) (s : State) (hc : dataFits s.params c.data) (r : Ran (List Byte))
    (h : executeE1 c s = .ok r) : Steps s r.state := by
  have w := (Steps.goto s (.e1 c)).trans (wakeW1_steps (.execute c) (s.goto (.e1 c)))
  unfold executeE1 afterWake at h
  rcases Ran.cases (wakeW1 (.execute c) (s.goto (.e1 c))) with ⟨a, t, e⟩ | ⟨er, t, e⟩
  · rw [e] at w h
    have hp : t.params = s.params := w.params
    exact w.trans (executeE2_steps c t (by rw [hp]; exact hc) r h)
  · rw [e] at w h
    cases h
    exact w

theorem executeE0_steps (c : Command) (s : State) (r : Ran (List Byte)) (h : executeE0 c s = .ok r) :
    Steps s r.state := by
  unfold executeE0 at h
  split at h
  · cases h
    exact .refl s
  · rename_i hg
    exact (Steps.goto s _).trans (executeE1_steps c _ (by simpa using fun hh => hg (.inl hh)) r h)

theorem zoneReadZ1_steps (zone : Byte) (address : Half) (length : Byte) (s : State) (r : Ran (List Byte))
    (h : zoneReadZ1 zone address length s = .ok r) : Steps s r.state := by
  unfold zoneReadZ1 at h
  split at h
  · cases h
    exact .refl s
  · exact (((Steps.goto s _).trans (.goto _ _)).trans (.goto _ _)).trans (executeE0_steps _ _ r h)

end Sys2Proof.Machine
end

