-- ==== Sys2Proof/Tests/Slice0.lean ====
section
/-! SUPPORT. Tests: which instructions are ill-formed, the words of every constructor, small runs of one step, and
witnesses that the hypotheses of the statements can be met. Every expected value is a vector of
spec/95_test_vectors.md (T.., P..) or is read off 30_encoding.md. -/

namespace Sys2Proof.Tests

open Sys2Proof Sys2Proof.Machine

/-! Ill-formed instructions: one for every check. -/

theorem test_wellFormed_crcUpdate : ¬ WellFormed (.crcUpdate (List.replicate 256 0)) := by decide +kernel
theorem test_wellFormed_encode : ¬ WellFormed (.encode 0 0 0 (List.replicate 256 0)) := by decide +kernel
theorem test_wellFormed_decode : ¬ WellFormed (.decode 0 (List.replicate 256 0)) := by decide +kernel
theorem test_wellFormed_execute : ¬ WellFormed (.execute 0 0 0 0 (List.replicate 256 0)) := by decide +kernel
theorem test_wellFormed_zoneWrite : ¬ WellFormed (.zoneWrite 0 0 2 [0xAA]) := by decide
theorem test_wellFormed_wireCommandFrame :
    ¬ WellFormed (.wireCommandFrame 0 0 0 (List.replicate 249 0)) := by decide +kernel
theorem test_wellFormed_wireResponseFrame :
    ¬ WellFormed (.wireResponseFrame 0 (List.replicate 253 0) 0) := by decide +kernel

/-! The words of 30_encoding.md R81 to R88, R90, R91, written out. T80 has most of the requests. -/

theorem test_decode_crcBegin : decode [0x10] = .ok .crcBegin := by decide
theorem test_decode_crcUpdate : decode [0x11, 0x02, 0x04, 0x11] = .ok (.crcUpdate [0x04, 0x11]) := by decide
theorem test_decode_crcEnd : decode [0x12] = .ok .crcEnd := by decide
theorem test_decode_wake : decode [0x20] = .ok .wake := by decide
theorem test_decode_idle : decode [0x21] = .ok .idle := by decide
theorem test_decode_sleep : decode [0x22] = .ok .sleep := by decide
theorem test_decode_encode : decode [0x30, 0x47, 0x01, 0x34, 0x12, 0x03, 0xAA, 0xBB, 0xCC] =
    .ok (.encode 0x47 0x01 0x1234 [0xAA, 0xBB, 0xCC]) := by decide
theorem test_decode_decode : decode [0x31, 0x07, 0x07, 0x07, 0x01, 0x23, 0x45, 0x67, 0x31, 0x6C] =
    .ok (.decode 7 [0x07, 0x01, 0x23, 0x45, 0x67, 0x31, 0x6C]) := by decide
theorem test_decode_receive : decode [0x40, 0x04] = .ok (.receive 4) := by decide
theorem test_decode_execute : decode [0x50, 0x02, 0x80, 0x34, 0x12, 0x07, 0x01, 0xEE] =
    .ok (.execute 0x02 0x80 0x1234 7 [0xEE]) := by decide
theorem test_decode_zoneRead : decode [0x60, 0x01, 0x08, 0x00, 0x20] = .ok (.zoneRead 1 0x0008 32) := by decide
theorem test_decode_zoneWrite : decode [0x61, 0x02, 0x00, 0x00, 0x04, 0xDE, 0xAD, 0xBE, 0xEF] =
    .ok (.zoneWrite 2 0x0000 4 [0xDE, 0xAD, 0xBE, 0xEF]) := by decide
/-- T36: the frame of an 11-byte write to the device. -/
theorem test_decode_wireCommandFrame : decodeOn State.reset.params .deviceWrite
    [0x03, 0x0A, 0x47, 0x01, 0x34, 0x12, 0xAA, 0xBB, 0xCC, 0xC9, 0x0A] =
    .ok (.wireCommandFrame 0x47 0x01 0x1234 [0xAA, 0xBB, 0xCC]) := by decide +kernel
theorem test_decode_wireWakePulse :
    decodeOn State.reset.params .wakeWrite [0x00] = .ok .wireWakePulse := by decide +kernel
/-- T25. -/
theorem test_decode_wireIdleByte :
    decodeOn State.reset.params .deviceWrite [0x02] = .ok .wireIdleByte := by decide +kernel
/-- T26. -/
theorem test_decode_wireSleepByte :
    decodeOn State.reset.params .deviceWrite [0x01] = .ok .wireSleepByte := by decide +kernel
/-- T24: the wake response as a response frame. -/
theorem test_decode_wireResponseFrame : decodeOn State.reset.params (.deviceRead 4)
    [0x04, 0x11, 0x33, 0x43] = .ok (.wireResponseFrame 0x04 [0x11] 0x4333) := by decide +kernel

/-- A frame whose checksum is wrong is none the block sends (R88). -/
theorem test_decode_badFrame : decodeOn State.reset.params .deviceWrite
    [0x03, 0x07, 0x02, 0x00, 0x00, 0x00, 0x2D, 0x1E] = .error .notAWirePattern := by decide +kernel
/-- T81: reserved selectors. -/
theorem test_decode_reserved : ∀ sel ∈ ([0x00, 0x13, 0x23, 0x32, 0x41, 0x51, 0x62, 0xFF] : List Byte),
    decode [sel] = .error (.reservedSelector sel) := by decide
/-- T82: malformed lengths. -/
theorem test_decode_malformed : ∀ Q ∈ ([[0x10, 0x00], [0x11, 0x02, 0x04], [0x11], [0x40],
    [0x60, 0x00, 0x00, 0x00], [0x50, 0x02, 0x00, 0x00, 0x00, 0x07, 0x01],
    [0x61, 0x02, 0x00, 0x00, 0x04, 0xDE, 0xAD]] : List (List Byte)), decode Q = .error .badLength := by decide
/-- A table word gets the operand bytes its format asks for, all 0. -/
theorem test_tableWord : decodeTableWord 8 0x50 = some (.execute 0 0 0 0 []) ∧
    decodeTableWord 8 0x03 = none := by decide +kernel

/-! One step from reset. -/

/-- The state after the request `Q` against the answers `script`, from `s`. -/
def after (s : State) (Q : List Byte) (script : List BusReply) : Option State :=
  match step { s with requests := [Q], script := script } with
  | .next t => some t
  | _ => none

/-- The response packets of a run. -/
def packets (t : State) : List (List Byte) := t.responses.map Response.packet

/-- The response packets of a step, with `ACC` and `PST`. -/
def outcome (Q : List Byte) (script : List BusReply) : Option (List (List Byte) × Half × PowerState) :=
  (after State.reset Q script).map fun t => (packets t, t.acc, t.pst)

/-- The answers of a transport that writes the pulse and delivers a good wake response. -/
def awake : List BusReply := [.ok [], .ok [0x04, 0x11, 0x33, 0x43]]

/-- The 7-byte response of T41. -/
def r7 : List Byte := [0x07, 0x01, 0x23, 0x45, 0x67, 0x31, 0x6C]

/-- T10. -/
theorem test_crcUpdate : outcome [0x11, 0x02, 0x04, 0x11] [] = some ([[0x00]], 0x4333, .unknown) := by
  decide +kernel
/-- T15. -/
theorem test_crcBegin : (after { State.reset with acc := 0x80C3 } [0x10] []).map (·.acc) = some 0x0000 := by
  decide +kernel
/-- T13. -/
theorem test_crcEnd : (after { State.reset with acc := 0x2D1E } [0x12] []).map (fun t => (packets t, t.acc)) =
    some ([[0x00, 0x1E, 0x2D]], 0x2D1E) := by decide +kernel
/-- T20. -/
theorem test_wake : outcome [0x20] awake = some ([[0x00]], 0x4333, .awake) := by decide +kernel
/-- T23: the second byte is right, the checksum is not. -/
theorem test_wake_rejected : outcome [0x20] [.ok [], .ok [0x05, 0x11, 0x33, 0x43]] =
    some ([[0x02]], 0xC33A, .unknown) := by decide +kernel
/-- T25. -/
theorem test_idle : (after State.reset [0x21] [.ok []]).map (fun t => (packets t, t.pst, t.trace)) =
    some ([[0x00]], .idle, [.wr 0xC0 [0x02] .ok]) := by decide +kernel
/-- T26. -/
theorem test_sleep : (after State.reset [0x22] [.ok []]).map (fun t => (packets t, t.pst, t.trace)) =
    some ([[0x00]], .sleeping, [.wr 0xC0 [0x01] .ok]) := by decide +kernel
/-- T36. -/
theorem test_encode : outcome [0x30, 0x47, 0x01, 0x34, 0x12, 0x03, 0xAA, 0xBB, 0xCC] [] =
    some ([[0x00, 0x03, 0x0A, 0x47, 0x01, 0x34, 0x12, 0xAA, 0xBB, 0xCC, 0xC9, 0x0A]], 0x0AC9, .unknown) := by
  decide +kernel
/-- T38: one byte more than `MAX_DATA`. -/
theorem test_encode_tooLong :
    outcome ([0x30, 0x00, 0x00, 0x00, 0x00, 0x95] ++ List.replicate 149 0x00) [] =
      some ([[0x06]], 0x0000, .unknown) := by decide +kernel
/-- T41. -/
theorem test_decode : outcome ([0x31, 0x07, 0x07] ++ r7) [] =
    some ([[0x00, 0x01, 0x23, 0x45, 0x67]], 0x6C31, .unknown) := by decide +kernel
/-- T47: the checksum bytes in the wrong order. -/
theorem test_decode_swapped : outcome [0x31, 0x07, 0x07, 0x07, 0x01, 0x23, 0x45, 0x67, 0x6C, 0x31] [] =
    some ([[0x03]], 0x6C31, .unknown) := by decide +kernel
/-- T55: short chunks and a failed read. -/
theorem test_receive : (after State.reset [0x40, 0x07]
    [.ok [0x01, 0x02, 0x03], .ok [0x04], .err, .ok [0x05, 0x06, 0x07]]).map
      (fun t => (packets t, t.cur, t.retry, t.trace.length)) =
    some ([[0x00, 0x01, 0x02, 0x03, 0x04, 0x05, 0x06, 0x07]], 7, 1, 4) := by decide +kernel
/-- T57: failure after partial data, at the 21st read. -/
theorem test_receive_exhausted : (after State.reset [0x40, 0x23]
    (.ok (List.replicate 32 0xAA) :: List.replicate 21 .err)).map
      (fun t => (packets t, t.cur, t.retry, t.pst, t.trace.length)) =
    some ([[0x05]], 32, 20, .unknown, 21) := by decide +kernel
/-- T60. -/
theorem test_execute : (after State.reset [0x50, 0x02, 0x00, 0x00, 0x00, 0x07, 0x00]
    (awake ++ [.ok [], .ok r7, .ok []])).map (fun t => (packets t, t.acc, t.pst, t.trace)) =
    some ([[0x00, 0x01, 0x23, 0x45, 0x67]], 0x6C31, .idle,
      [.wr 0x00 [0x00] .ok, .dl 1500, .rd 0xC0 4 (.ok [0x04, 0x11, 0x33, 0x43]),
       .wr 0xC0 [0x03, 0x07, 0x02, 0x00, 0x00, 0x00, 0x1E, 0x2D] .ok, .dl 1000, .rd 0xC0 7 (.ok r7),
       .wr 0xC0 [0x02] .ok]) := by decide +kernel
/-- T66: the idle write is made, then the mismatch is found. -/
theorem test_execute_mismatch : outcome [0x50, 0x02, 0x00, 0x00, 0x00, 0x07, 0x00]
    (awake ++ [.ok [], .ok [0x07, 0x01, 0x33, 0x45, 0x67, 0x31, 0x6C], .ok []]) =
    some ([[0x03]], 0xEC92, .idle) := by decide +kernel
/-- T73: bit 7 of the zone byte is overwritten; the frame in `TXBUF`. -/
theorem test_zoneRead : (after State.reset [0x60, 0x7F, 0xFF, 0xFF, 0x20] (awake ++ [.err])).map
    (fun t => (packets t, t.txbuf.readAll 0 8)) =
    some ([[0x01]], some [0x03, 0x07, 0x02, 0xFF, 0xFF, 0xFF, 0x1F, 0xA1]) := by decide +kernel
/-- T72. -/
theorem test_zoneRead_length : (after State.reset [0x60, 0x00, 0x00, 0x00, 0x10] awake).map
    (fun t => (packets t, t.trace, t.script)) = some ([[0x06]], [], awake) := by decide +kernel
/-- T75. -/
theorem test_zoneWrite : outcome [0x61, 0x02, 0x00, 0x00, 0x04, 0xDE, 0xAD, 0xBE, 0xEF] [] =
    some ([[0x07]], 0x0000, .unknown) := by decide +kernel
/-- T81, T82: a reserved selector, and the empty request. -/
theorem test_rejected : outcome [0x13] [] = some ([[0x06]], 0x0000, .unknown) ∧
    outcome [] [] = some ([[0x06]], 0x0000, .unknown) := by decide +kernel
/-- A word of the table is the next request. -/
theorem test_withFetchWord : (match step (State.reset.withFetchWord 8 0x12) with
    | .next t => packets t
    | _ => []) = [[0x00, 0x00, 0x00]] := by decide +kernel

/-- What a wire pattern does: the event, or the response. -/
def wire (i : Instr) (script : List BusReply) : Option (List Event × List (List Byte)) :=
  match exec i { State.reset with script := script } with
  | .next t => some (t.trace, packets t)
  | _ => none

/-- T30. -/
theorem test_wireCommandFrame : wire (.wireCommandFrame 0x02 0x00 0x0000 []) [.ok []] =
    some ([.wr 0xC0 [0x03, 0x07, 0x02, 0x00, 0x00, 0x00, 0x1E, 0x2D] .ok], []) := by decide +kernel
theorem test_wireWakePulse : wire .wireWakePulse [.err] = some ([.wr 0x00 [0x00] .err], []) := by
  decide +kernel
theorem test_wireIdleByte : wire .wireIdleByte [.ok []] = some ([.wr 0xC0 [0x02] .ok], []) := by
  decide +kernel
theorem test_wireSleepByte : wire .wireSleepByte [.ok []] = some ([.wr 0xC0 [0x01] .ok], []) := by
  decide +kernel
/-- T49: the count byte is not checked. -/
theorem test_wireResponseFrame : wire (.wireResponseFrame 0xFF [0x01, 0x23, 0x45, 0x67] 0xE91A) [] =
    some ([], [[0x00, 0x01, 0x23, 0x45, 0x67]]) := by decide +kernel

/-! Witnesses: for every statement with hypotheses, states and operands that meet them. -/

/-- Reset with one request and the answers `script`. -/
def asked (Q : List Byte) (script : List BusReply) : State :=
  { State.reset with requests := [Q], script := script }

/-- Reset with the answers `script`. -/
def answered (script : List BusReply) : State := { State.reset with script := script }

/-- Whether an outcome is a next state for which `p` holds. -/
def nextIs (o : Host.Outcome State Fault Refusal) (p : State → Bool) : Bool :=
  match o with
  | .next t => p t
  | _ => false

theorem nextIs_exists {o : Host.Outcome State Fault Refusal} {p : State → Bool} (h : nextIs o p = true) :
    ∃ t, o = .next t ∧ p t = true := by
  cases o with
  | next t => exact ⟨t, rfl, h⟩
  | fault f => cases h
  | refused r => cases h

theorem witness_StepRunsDecodedRequest : ∃ (s : State) (Q : List Byte) (rest : List (List Byte)) (i : Instr),
    s.seq = .ready ∧ s.requests = Q :: rest ∧ decode Q = .ok i :=
  ⟨asked [0x20] [], [0x20], [], .wake, rfl, rfl, by decide⟩

theorem witness_ReservedSelectorIsInvalidArgument : ∃ (s : State) (sel : Byte) (operands : List Byte)
    (rest : List (List Byte)), s.seq = .ready ∧ s.requests = (sel :: operands) :: rest ∧
    sel ∉ ([0x10, 0x11, 0x12, 0x20, 0x21, 0x22, 0x30, 0x31, 0x40, 0x50, 0x60, 0x61] : List Byte) :=
  ⟨asked [0x62, 0x01] [], 0x62, [0x01], [], rfl, rfl, by decide⟩

theorem witness_MalformedRequestIsInvalidArgument_empty : ∃ (s : State) (rest : List (List Byte)),
    s.seq = .ready ∧ s.requests = [] :: rest := ⟨asked [] [], [], rfl, rfl⟩

theorem witness_MalformedRequestIsInvalidArgument_length :
    ∃ (s : State) (Q : List Byte) (rest : List (List Byte)),
      s.seq = .ready ∧ s.requests = Q :: rest ∧ Q.length ≠ requestLength Q :=
  ⟨asked [0x11] [], [0x11], [], rfl, rfl, by decide⟩

theorem witness_BlockWaitsForRequest : ∃ s : State, s.seq = .ready ∧ s.requests = [] :=
  ⟨State.reset, rfl, rfl⟩

theorem witness_RunningOperationTakesNoRequest : ∃ s t : State, s.seq ≠ .ready ∧ step s = .next t := by
  obtain ⟨t, h, -⟩ := nextIs_exists
    (o := step ((asked [0x20] [.ok []]).goto (.w1 .host))) (p := fun _ => true) (by decide +kernel)
  exact ⟨_, t, by decide, h⟩

theorem witness_EveryRequestGetsOneResponse : ∃ (s : State) (Q : List Byte) (rest : List (List Byte)),
    s.seq = .ready ∧ s.requests = Q :: rest := ⟨asked [0x40, 0xFF] [], _, [], rfl, rfl⟩

theorem witness_DecodeOfEncodeIsIdentity : ∃ (p : Params) (i : Instr), p.waIdle ≠ p.waSleep ∧ WellFormed i :=
  ⟨State.reset.params, .wireCommandFrame 0x47 0x01 0x1234 (List.replicate 248 0xFF), by decide +kernel,
    by decide +kernel⟩

theorem witness_EncodeOfDecodeIsIdentity : ∃ (Q : List Byte) (i : Instr), decode Q = .ok i :=
  ⟨[0x40, 0xFF], .receive 255, by decide⟩

theorem witness_CrcUpdateFoldsBytesIntoAcc : ∃ (n : Byte) (B : List Byte), B.length = n.toNat :=
  ⟨255, List.replicate 255 0xFF, by decide +kernel⟩

theorem witness_ChecksumIsLinear : ∃ A B : List Byte, A.length = B.length ∧ A ≠ B :=
  ⟨[0x04, 0x11], [0xFF, 0xFF], rfl, by decide⟩

theorem witness_ChecksumByteIsInjective :
    (∃ (acc : Half) (b c : Byte), crcByte acc b = crcByte acc c) ∧
    ∃ (acc acc' : Half) (b : Byte), crcByte acc b = crcByte acc' b :=
  ⟨⟨0xFFFF, 0x01, 0x01, rfl⟩, 0x8000, 0x8000, 0x01, rfl⟩

theorem witness_TwoByteChecksumIsBijective : ∃ a b c d : Byte, crc16 [a, b] = crc16 [c, d] :=
  ⟨0x04, 0x11, 0x04, 0x11, rfl⟩

theorem witness_CommandFrameHasStatedShape :
    (∃ data : List Byte, data.length = 0 ∧ data.length ≤ 248) ∧
    ∃ data : List Byte, data.length = 248 ∧ data.length ≤ 248 :=
  ⟨⟨[], by decide⟩, List.replicate 248 0x00, by decide +kernel⟩

theorem witness_CommandFrameDeterminesOperands :
    ∃ (opcode param1 opcode' param1' : Byte) (param2 param2' : Half) (data data' : List Byte),
      data.length ≤ 248 ∧ data'.length ≤ 248 ∧
      encodeFrame opcode param1 param2 data = encodeFrame opcode' param1' param2' data' :=
  ⟨0x47, 0x01, 0x47, 0x01, 0x1234, 0x1234, [0xAA], [0xAA], by decide, by decide, rfl⟩

/-- The two sides of the bound `MAX_DATA` = 148. -/
theorem witness_EncodeReturnsFrame :
    (∃ (n : Byte) (data : List Byte), data.length = n.toNat) ∧
    (∃ (data : List Byte) (s : State), data.length ≤ s.params.maxData.val) ∧
    ∃ (data : List Byte) (s : State), s.params.maxData.val < data.length :=
  ⟨⟨3, [0xAA, 0xBB, 0xCC], rfl⟩, ⟨List.replicate 148 0, State.reset, by decide +kernel⟩,
    List.replicate 149 0, State.reset, by decide +kernel⟩

/-- A request of DECODE, and an operand for each of the four endings of the statement, at the bounds: T48, T45, T46,
T44. -/
theorem witness_DecodeValidatesResponse :
    (∃ (n : Byte) (raw : List Byte), raw.length = n.toNat) ∧
    (2 : Byte).toNat < 3 ∧ ([] : List Byte).length ≠ (4 : Byte).toNat ∧
    (r7.set 2 0x33).drop 5 ≠ le16 (crc16 ((r7.set 2 0x33).take 5)) ∧
    ([0x03, 0x80, 0x02] : List Byte).drop 1 = le16 (crc16 (([0x03, 0x80, 0x02] : List Byte).take 1)) :=
  ⟨⟨7, r7, rfl⟩, by decide +kernel⟩

theorem witness_DecodeAnswersAsValidate : ∃ expected : Byte, 3 ≤ expected.toNat := ⟨3, by decide⟩

/-- T46 against T41. -/
theorem witness_AlteredResponseIsRejected : ∃ (raw raw' payload : List Byte) (L k : Nat),
    3 ≤ L ∧ validate raw L = .ok payload ∧ k < L - 2 ∧ raw'.length = raw.length ∧ raw'[k]? ≠ raw[k]? ∧
    ∀ j, j ≠ k → raw'[j]? = raw[j]? :=
  ⟨r7, r7.set 2 0x33, [0x01, 0x23, 0x45, 0x67], 7, 2, by decide, by decide +kernel, by decide, rfl, by decide,
    fun j hj => List.getElem?_set_ne (Ne.symm hj)⟩

/-- T21, T22, T23 (three bytes), T20 and T23: each way WAKE can go. -/
theorem witness_WakeRunsAsStated :
    (answered [.err]).nextReply = .err ∧
    ((answered [.ok [], .err]).nextReply = .ok [] ∧ (answered [.ok [], .err]).dropReply.nextReply = .err) ∧
    ((answered [.ok [], .ok [0x04, 0x11, 0x33]]).dropReply.nextReply = .ok [0x04, 0x11, 0x33] ∧
      ([0x04, 0x11, 0x33] : List Byte).length ≠ 4) ∧
    ((answered awake).nextReply = .ok [] ∧
      (answered awake).dropReply.nextReply = .ok [0x04, 0x11, 0x33, 0x43]) ∧
    crc16 [0x04, 0x11] = 0x4333 ∧ crc16 [0x05, 0x11] ≠ 0x4333 :=
  ⟨rfl, ⟨rfl, rfl⟩, ⟨rfl, by decide⟩, ⟨rfl, rfl⟩, by decide +kernel⟩

theorem witness_WakeAcceptsExactlyOnePair : ∃ (s : State) (B : List Byte) (c0 c1 c2 c3 : Byte),
    s.nextReply = .ok B ∧ s.dropReply.nextReply = .ok [c0, c1, c2, c3] :=
  ⟨answered awake, [], 0x04, 0x11, 0x33, 0x43, rfl, rfl⟩

theorem witness_IdleRunsAsStated :
    (answered [.ok []]).nextReply = .ok [] ∧ (answered [.err]).nextReply = .err := ⟨rfl, rfl⟩

theorem witness_SleepRunsAsStated :
    (answered [.ok []]).nextReply = .ok [] ∧ (answered [.err]).nextReply = .err := ⟨rfl, rfl⟩

/-- EXECUTE with every ending of its clauses: T60, T66, T65, T61. -/
theorem witness_PstChangesOnlyByTable : ∃ (i : Instr) (s t : State), isOperation i = true ∧ exec i s = .next t ∧
    t.responses = [.error .checksumMismatch] ∧ t.pst = .idle := by
  obtain ⟨t, h, h'⟩ := nextIs_exists
    (o := exec (.execute 0x02 0x00 0x0000 7 [])
      (answered (awake ++ [.ok [], .ok (r7.set 2 0x33), .ok []])))
    (p := fun t => t.responses == [.error .checksumMismatch] && t.pst == .idle) (by decide +kernel)
  simp only [Bool.and_eq_true, beq_iff_eq] at h'
  exact ⟨_, _, t, rfl, h, h'.1, h'.2⟩

/-- Both endings of the loop: with all the bytes (T54 with one failure), and exhausted (T53). -/
theorem witness_ReceiveRefinesGather :
    gather 0xC0 4 [] 0 [] [.err, .ok [1, 2, 3, 4]] =
      some ⟨false, [1, 2, 3, 4], 1, [.rd 0xC0 4 .err, .rd 0xC0 4 (.ok [1, 2, 3, 4])]⟩ ∧
    gather 0xC0 35 [] 0 [] (List.replicate 21 .err) =
      some ⟨true, [], 20, List.replicate 20 (.rd 0xC0 32 .err)⟩ := by decide +kernel

/-- T53 and T54. -/
theorem witness_ReceiveGivesUpAtTwentiethFailure :
    (∃ (total : Byte) (s : State) (rest : List BusReply), total ≠ 0 ∧
      s.script = List.replicate 20 .err ++ rest) ∧
    ∃ (total : Byte) (C : List Byte) (s : State) (rest : List BusReply), total ≠ 0 ∧
      C.length = total.toNat ∧ C.length ≤ 32 ∧ s.script = List.replicate 19 .err ++ .ok C :: rest :=
  ⟨⟨35, answered (List.replicate 20 .err), [], by decide, rfl⟩,
    32, List.replicate 32 0xAA, answered (List.replicate 19 .err ++ [.ok (List.replicate 32 0xAA)]), [],
    by decide, rfl, by decide, rfl⟩

/-- T50. -/
theorem witness_ReceiveInFullChunks : ∃ (total : Byte) (B : List Byte) (rest : List BusReply) (s : State),
    B.length = total.toNat ∧ s.script = fullReplies B ++ rest :=
  ⟨35, List.replicate 35 0xAA, [], answered (fullReplies (List.replicate 35 0xAA)), rfl, by simp [answered]⟩

/-- Each side of the disjunction, at its bound (T61). -/
theorem witness_ExecuteRefusesBadArguments :
    (∃ (data : List Byte) (s : State), s.params.maxData.val < data.length) ∧
    ∃ expected : Byte, expected.toNat < 3 :=
  ⟨⟨List.replicate 149 0, State.reset, by decide +kernel⟩, 2, by decide⟩

/-- Format HX, and arguments on either side of each bound of E0 (T61). -/
theorem witness_ExecuteIsItsSteps :
    (∃ (n : Byte) (data : List Byte), data.length = n.toNat) ∧
    State.reset.params.maxData.val < (List.replicate 149 (0x00 : Byte)).length ∧ (2 : Byte).toNat < 3 ∧
    ¬ (State.reset.params.maxData.val < (List.replicate 148 (0x00 : Byte)).length ∨ (3 : Byte).toNat < 3) :=
  ⟨⟨0, [], rfl⟩, by decide +kernel⟩

/-- T62. -/
theorem witness_ExecuteFailsAsWakeFails : ∃ (expected : Byte) (data : List Byte) (s u : State) (e : Error),
    data.length ≤ s.params.maxData.val ∧ 3 ≤ expected.toNat ∧ exec .wake s = .next u ∧
    u.responses = s.responses ++ [.error e] := by
  obtain ⟨t, h, h'⟩ := nextIs_exists (o := exec .wake (answered [.err]))
    (p := fun t => t.responses == [.error .transportError]) (by decide +kernel)
  exact ⟨3, [], answered [.err], t, .transportError, by decide, by decide, h,
    (beq_iff_eq.mp h').trans rfl⟩

/-- T63. -/
theorem witness_ExecuteEndsWhenFrameWriteFails : ∃ (expected x y : Byte) (data w : List Byte)
    (rest : List BusReply) (s : State), data.length ≤ s.params.maxData.val ∧ 3 ≤ expected.toNat ∧
    s.script = .ok w :: .ok [0x04, 0x11, x, y] :: .err :: rest :=
  ⟨7, 0x33, 0x43, [], [], [], answered (awake ++ [.err]), by decide, by decide, rfl⟩

/-- T64. -/
theorem witness_ExecuteEndsWhenReceiveIsExhausted : ∃ (expected x y : Byte) (data w f : List Byte)
    (rest : List BusReply) (s : State), data.length ≤ s.params.maxData.val ∧ 3 ≤ expected.toNat ∧
    s.script = .ok w :: .ok [0x04, 0x11, x, y] :: .ok f :: (List.replicate 20 .err ++ rest) :=
  ⟨7, 0x33, 0x43, [], [], [], [], answered (awake ++ .ok [] :: List.replicate 20 .err), by decide, by decide, rfl⟩

/-- T65. -/
theorem witness_ExecuteEndsWhenIdleFails : ∃ (expected x y : Byte) (data w f R : List Byte)
    (rest : List BusReply) (s : State), data.length ≤ s.params.maxData.val ∧ 3 ≤ expected.toNat ∧
    R.length = expected.toNat ∧
    s.script = .ok w :: .ok [0x04, 0x11, x, y] :: .ok f :: (fullReplies R ++ .err :: rest) :=
  ⟨7, 0x33, 0x43, [], [], [], r7, [], answered (awake ++ .ok [] :: (fullReplies r7 ++ [.err])),
    by decide, by decide, rfl, rfl⟩

/-- T60. -/
theorem witness_ExecuteRunsCommandCycle : ∃ (expected x y : Byte) (data w f i R : List Byte)
    (rest : List BusReply) (s : State), data.length ≤ s.params.maxData.val ∧ 3 ≤ expected.toNat ∧
    R.length = expected.toNat ∧
    s.script = .ok w :: .ok [0x04, 0x11, x, y] :: .ok f :: (fullReplies R ++ .ok i :: rest) :=
  ⟨7, 0x33, 0x43, [], [], [], [], r7, [], answered (awake ++ .ok [] :: (fullReplies r7 ++ [.ok []])),
    by decide, by decide, rfl, rfl⟩

/-- A run of EXECUTE that is not exhausted. -/
theorem witness_CommandCycleKeepsTheRest : ∃ (expected : Byte) (data : List Byte) (s t : State),
    exec (.execute 0x02 0x00 0x0000 expected data) s = .next t ∧
    t.responses ≠ s.responses ++ [.error .receiveExhausted] := by
  obtain ⟨t, h, h'⟩ := nextIs_exists (o := exec (.execute 0x02 0x00 0x0000 7 []) (answered (awake ++ [.err])))
    (p := fun t => t.responses == [.error .transportError]) (by decide +kernel)
  refine ⟨7, [], _, t, h, ?_⟩
  rw [show t.responses = [.error .transportError] by simpa using h']
  decide

theorem witness_ZoneReadRefusesOtherLengths : ∃ length : Byte, length ≠ 4 ∧ length ≠ 32 :=
  ⟨31, by decide, by decide⟩

/-- T71, with 32 bytes of 0xFF, and P2 with 4. -/
theorem witness_ZoneReadReturnsPayload :
    (∃ (w f i R payload : List Byte) (rest : List BusReply) (s : State),
      R.length = (4 : Byte).toNat + 3 ∧ validate R ((4 : Byte).toNat + 3) = .ok payload ∧
      s.script = .ok w :: .ok [0x04, 0x11, 0x33, 0x43] :: .ok f :: (fullReplies R ++ .ok i :: rest)) ∧
    ∃ R payload : List Byte, R.length = (32 : Byte).toNat + 3 ∧
      validate R ((32 : Byte).toNat + 3) = .ok payload :=
  ⟨⟨[], [], [], r7, [0x01, 0x23, 0x45, 0x67], [], answered (awake ++ .ok [] :: (fullReplies r7 ++ [.ok []])),
      rfl, by decide +kernel, rfl⟩,
    0x23 :: (List.replicate 32 0xFF ++ [0x96, 0x2C]), List.replicate 32 0xFF, rfl, by decide +kernel⟩

theorem witness_ZoneWriteIsUnimplemented : ∃ (length : Byte) (buffer : List Byte),
    buffer.length = length.toNat := ⟨2, [0xDE, 0xAD], rfl⟩

theorem witness_WirePatternsAreSingleWrites : ∃ (data : List Byte) (s : State),
    data.length ≤ s.params.maxData.val := ⟨List.replicate 148 0, State.reset, by decide +kernel⟩

theorem witness_ResultsAreListedOnes : ∃ (i : Instr) (s t : State), isOperation i = true ∧ exec i s = .next t :=
  ⟨.crcEnd, State.reset, _, rfl, rfl⟩

/-- T48. -/
theorem witness_InvalidArgumentChangesNothing : ∃ (i : Instr) (s t : State), isOperation i = true ∧
    exec i s = .next t ∧ t.responses = s.responses ++ [.error .invalidArgument] :=
  ⟨.decode 2 [], State.reset, _, rfl, rfl, rfl⟩

theorem witness_BusOperationsKeepTheRest :
    (∃ s t : State, exec .idle s = .next t) ∧ (∃ s t : State, exec .sleep s = .next t) ∧
    (∃ s t : State, exec .wake s = .next t) ∧ ∃ (total : Byte) (s t : State), exec (.receive total) s = .next t := by
  obtain ⟨a, ha, -⟩ := nextIs_exists (o := exec .idle (answered [.err])) (p := fun _ => true) (by decide +kernel)
  obtain ⟨b, hb, -⟩ := nextIs_exists (o := exec .sleep (answered [.err])) (p := fun _ => true) (by decide +kernel)
  obtain ⟨c, hc, -⟩ := nextIs_exists (o := exec .wake (answered awake)) (p := fun _ => true) (by decide +kernel)
  obtain ⟨d, hd, -⟩ := nextIs_exists (o := exec (.receive 1) (answered [.ok [0xAA]])) (p := fun _ => true)
    (by decide +kernel)
  exact ⟨⟨_, a, ha⟩, ⟨_, b, hb⟩, ⟨_, c, hc⟩, 1, _, d, hd⟩

/-- The state of the witnesses below: WAKE asked of a READY block, from the state after reset. -/
theorem asked_inv : (asked [0x20] awake).Inv where
  txWf := List.Pairwise.nil
  txBelow := by intro x hx; cases hx
  rxWf := List.Pairwise.nil
  rxBelow := by intro x hx; cases hx
  retryLe := by decide
  curLe := by decide
  txlenLe := by decide
  seqFits := trivial
  receiving := trivial

theorem witness_OnlyStatedEventsHappen : ∃ s t : State, s.Inv ∧ step s = .next t ∧ t.trace.length = 3 := by
  obtain ⟨t, h, h'⟩ := nextIs_exists (o := step (asked [0x20] awake)) (p := fun t => t.trace.length == 3)
    (by decide +kernel)
  exact ⟨_, t, asked_inv, h, by simpa using h'⟩

theorem witness_NoOperationReadsPst : ∃ (i : Instr) (s t : State), exec i s = .next t :=
  ⟨.crcEnd, State.reset, _, rfl⟩

theorem witness_NoOperationReadsLeftovers : ∃ (i : Instr) (s t : State), exec i s = .next t :=
  ⟨.encode 0x02 0x00 0x0000 [], State.reset, _, rfl⟩

theorem witness_StepKeepsInvariant : ∃ s t : State, s.Inv ∧ step s = .next t := by
  obtain ⟨t, h, -⟩ := nextIs_exists (o := step (asked [0x20] awake)) (p := fun _ => true) (by decide +kernel)
  exact ⟨_, t, asked_inv, h⟩

theorem witness_InvariantStateNeverStops : ∃ s : State, s.Inv := ⟨_, asked_inv⟩

end Sys2Proof.Tests
end

/-! ## The host's requests (30_encoding.md section 2)

A request that decodes is the packet of its instruction (`isPacketOf_of_decode`), so it has the length its format
gives it (`length_of_decode`); every other request is rejected by one and the same step (`step_of_decode_error`). -/

namespace Sys2Proof

open Sys2Proof.Machine

/-- `Q` is the packet of `i`, one of the twelve operations (30_encoding.md R80, R102). -/
abbrev IsPacketOf (p : Params) (Q : List Byte) (i : Instr) : Prop :=
  WellFormed i ∧ isOperation i = true ∧ encode p i = Q

theorem lengthByte_eq {B : List Byte} {n : Byte} (h : B.length = n.toNat) : lengthByte B = n := by
  simp [lengthByte, h]

theorem length_le_of_eq_toNat {B : List Byte} {n : Byte} (h : B.length = n.toNat) : B.length ≤ 255 :=
  h ▸ Nat.le_of_lt_succ n.isLt

/-- What `le16` makes of a value assembled from two operand bytes (00_scope.md R12). -/
@[simp] theorem le16_fromLe16 (a b : Byte) : le16 (fromLe16 a b) = [a, b] := by
  simp [le16]

/-! The formats, one lemma each: what the decoder of the format accepts is the packet, its selector in front. -/

theorem decodeH0_isPacketOf {p : Params} {sel : Byte} {B : List Byte} {j i : Instr}
    (hj : IsPacketOf p [sel] j) (h : decodeH0 j B = .ok i) : IsPacketOf p (sel :: B) i := by
  cases B with
  | nil =>
    cases h
    exact hj
  | cons b B => cases h

theorem decodeCounted_isPacketOf {p : Params} {Q B : List Byte} {n : Byte} {f : List Byte → Instr}
    {i : Instr} (h : decodeCounted n B f = .ok i) (hf : B.length = n.toNat → IsPacketOf p Q (f B)) :
    IsPacketOf p Q i := by
  unfold decodeCounted at h
  split at h
  next hlen =>
    cases h
    exact hf hlen
  next => cases h

theorem decodeH1_isPacketOf (p : Params) {B : List Byte} {i : Instr} (h : decodeH1 B = .ok i) :
    IsPacketOf p (0x11 :: B) i := by
  unfold decodeH1 at h
  split at h
  next =>
    exact decodeCounted_isPacketOf h fun hlen =>
      ⟨length_le_of_eq_toNat hlen, rfl, by simp [encode, lengthByte_eq hlen]⟩
  next => cases h

theorem decodeHE_isPacketOf (p : Params) {B : List Byte} {i : Instr} (h : decodeHE B = .ok i) :
    IsPacketOf p (0x30 :: B) i := by
  unfold decodeHE at h
  split at h
  next =>
    exact decodeCounted_isPacketOf h fun hlen =>
      ⟨length_le_of_eq_toNat hlen, rfl, by simp [encode, lengthByte_eq hlen]⟩
  next => cases h

theorem decodeHD_isPacketOf (p : Params) {B : List Byte} {i : Instr} (h : decodeHD B = .ok i) :
    IsPacketOf p (0x31 :: B) i := by
  unfold decodeHD at h
  split at h
  next =>
    exact decodeCounted_isPacketOf h fun hlen =>
      ⟨length_le_of_eq_toNat hlen, rfl, by simp [encode, lengthByte_eq hlen]⟩
  next => cases h

theorem decodeHR_isPacketOf (p : Params) {B : List Byte} {i : Instr} (h : decodeHR B = .ok i) :
    IsPacketOf p (0x40 :: B) i := by
  unfold decodeHR at h
  split at h
  next =>
    cases h
    exact ⟨trivial, rfl, rfl⟩
  next => cases h

theorem decodeHX_isPacketOf (p : Params) {B : List Byte} {i : Instr} (h : decodeHX B = .ok i) :
    IsPacketOf p (0x50 :: B) i := by
  unfold decodeHX at h
  split at h
  next =>
    exact decodeCounted_isPacketOf h fun hlen =>
      ⟨length_le_of_eq_toNat hlen, rfl, by simp [encode, lengthByte_eq hlen]⟩
  next => cases h

theorem decodeHZ_isPacketOf (p : Params) {B : List Byte} {i : Instr} (h : decodeHZ B = .ok i) :
    IsPacketOf p (0x60 :: B) i := by
  unfold decodeHZ at h
  split at h
  next =>
    cases h
    exact ⟨trivial, rfl, by simp [encode]⟩
  next => cases h

theorem decodeHW_isPacketOf (p : Params) {B : List Byte} {i : Instr} (h : decodeHW B = .ok i) :
    IsPacketOf p (0x61 :: B) i := by
  unfold decodeHW at h
  split at h
  next => exact decodeCounted_isPacketOf h fun hlen => ⟨hlen, rfl, by simp [encode]⟩
  next => cases h

theorem decode_reserved {sel : Byte} (operands : List Byte)
    (h : sel ∉ ([0x10, 0x11, 0x12, 0x20, 0x21, 0x22, 0x30, 0x31, 0x40, 0x50, 0x60, 0x61] : List Byte)) :
    decode (sel :: operands) = .error (.reservedSelector sel) := by
  simp only [List.mem_cons, List.not_mem_nil, or_false, not_or] at h
  simp only [decode, h, if_false]

/-- A request that decodes is the packet of its instruction: the case split is the selector's. -/
theorem isPacketOf_of_decode (p : Params) {Q : List Byte} {i : Instr} (h : decode Q = .ok i) :
    IsPacketOf p Q i := by
  cases Q with
  | nil => cases h
  | cons sel operands =>
    have hsel : sel ∈
        ([0x10, 0x11, 0x12, 0x20, 0x21, 0x22, 0x30, 0x31, 0x40, 0x50, 0x60, 0x61] : List Byte) := by
      by_contra hsel
      rw [decode_reserved operands hsel] at h
      cases h
    simp only [List.mem_cons, List.not_mem_nil, or_false] at hsel
    rcases hsel with rfl | rfl | rfl | rfl | rfl | rfl | rfl | rfl | rfl | rfl | rfl | rfl
    · exact decodeH0_isPacketOf ⟨trivial, rfl, rfl⟩ h
    · exact decodeH1_isPacketOf p h
    · exact decodeH0_isPacketOf ⟨trivial, rfl, rfl⟩ h
    · exact decodeH0_isPacketOf ⟨trivial, rfl, rfl⟩ h
    · exact decodeH0_isPacketOf ⟨trivial, rfl, rfl⟩ h
    · exact decodeH0_isPacketOf ⟨trivial, rfl, rfl⟩ h
    · exact decodeHE_isPacketOf p h
    · exact decodeHD_isPacketOf p h
    · exact decodeHR_isPacketOf p h
    · exact decodeHX_isPacketOf p h
    · exact decodeHZ_isPacketOf p h
    · exact decodeHW_isPacketOf p h

/-- The family `Laws.PacketLength`, gathered over the instructions. -/
theorem packetLength (i : Instr) : Laws.PacketLength.Statement i := by
  cases i with
  | crcBegin => exact Laws.PacketLength.crcBegin
  | crcUpdate bytes => exact Laws.PacketLength.crcUpdate bytes
  | crcEnd => exact Laws.PacketLength.crcEnd
  | wake => exact Laws.PacketLength.wake
  | idle => exact Laws.PacketLength.idle
  | sleep => exact Laws.PacketLength.sleep
  | encode opcode param1 param2 data => exact Laws.PacketLength.encode opcode param1 param2 data
  | decode expected raw => exact Laws.PacketLength.decode expected raw
  | receive total => exact Laws.PacketLength.receive total
  | execute opcode param1 param2 expected data =>
    exact Laws.PacketLength.execute opcode param1 param2 expected data
  | zoneRead zone address length => exact Laws.PacketLength.zoneRead zone address length
  | zoneWrite zone address length buffer =>
    exact Laws.PacketLength.zoneWrite zone address length buffer
  | wireCommandFrame opcode param1 param2 data =>
    exact Laws.PacketLength.wireCommandFrame opcode param1 param2 data
  | wireWakePulse => exact Laws.PacketLength.wireWakePulse
  | wireIdleByte => exact Laws.PacketLength.wireIdleByte
  | wireSleepByte => exact Laws.PacketLength.wireSleepByte
  | wireResponseFrame count payload checksum =>
    exact Laws.PacketLength.wireResponseFrame count payload checksum

/-- A request that decodes has the length of its format: it is a packet, and both numbers are the packet's. -/
theorem length_of_decode {Q : List Byte} {i : Instr} (h : decode Q = .ok i) :
    Q.length = requestLength Q := by
  obtain ⟨hwf, hop, rfl⟩ := isPacketOf_of_decode presumedParams h
  obtain ⟨hlen, hreq⟩ := packetLength i hwf presumedParams
  rw [hlen, hreq hop]

theorem decode_malformed {Q : List Byte} (h : Q = [] ∨ Q.length ≠ requestLength Q) :
    ∃ e, decode Q = .error e := by
  cases hd : decode Q with
  | error e => exact ⟨e, rfl⟩
  | ok i =>
    rcases h with rfl | hlen
    · cases hd
    · exact absurd (length_of_decode hd) hlen

/-- The one step that answers every request which is no instruction (30_encoding.md R105, R106). -/
theorem step_of_decode_error {s : State} {Q : List Byte} {rest : List (List Byte)} {e : DecodeError}
    (hs : s.seq = .ready) (hq : s.requests = Q :: rest) (hd : decode Q = .error e) :
    step s = .next { s with
      requests := rest, seq := .ready, responses := s.responses ++ [.error .invalidArgument] } := by
  have hrej : step s = rejectRequest s.takeRequest := by simp [step, hs, hq, hd]
  rw [hrej, State.takeRequest, hq]
  rfl

/-- Settles O4: such a request does not decode, because one that decodes is a packet. -/
theorem malformedRequestIsInvalidArgument : Obligations.MalformedRequestIsInvalidArgument := by
  intro s Q rest hs hq hQ
  obtain ⟨e, hd⟩ := decode_malformed hQ
  exact step_of_decode_error hs hq hd

/-- Settles O3: such a request does not decode, because the selector is tested before anything else. -/
theorem reservedSelectorIsInvalidArgument : Obligations.ReservedSelectorIsInvalidArgument := by
  intro s sel operands rest hs hq hsel
  exact step_of_decode_error hs hq (decode_reserved operands hsel)

end Sys2Proof

/-! ## What an operation does, `SEQ` aside

The labels of a command cycle carry who asked for it. Apart from them the cycle is the same for EXECUTE and for step
Z3 of ZONE_READ. `atReady` forgets the label, as the response does; every step gives the same up to it for every
`Parent` and every `Origin`. -/

namespace Sys2Proof.Machine

variable {α β : Type}

/-- What an operation leaves, the label in `SEQ` forgotten. -/
def Ran.atReady (r : Ran α) : Ran α := ⟨r.state.goto .ready, r.result⟩

/-- `Ran.atReady`, for an operation that can meet the fault. -/
def Run.atReady (r : Run α) : Run α := r.map Ran.atReady

/-- The response sets `SEQ` to READY itself, so it sees no label. -/
theorem finishRun_atReady (r : Run (List Byte)) : finishRun (Run.atReady r) = finishRun r := by
  cases r <;> rfl

theorem finishRun_congr {r r' : Run (List Byte)} (h : Run.atReady r = Run.atReady r') :
    finishRun r = finishRun r' := by
  rw [← finishRun_atReady r, h, finishRun_atReady]

/-- Two endings that agree up to the label differ in it alone. -/
theorem Ran.eq_goto_of_atReady_eq {r r' : Ran α} (h : r.atReady = r'.atReady) :
    ∃ q, r' = ⟨r.state.goto q, r.result⟩ := by
  have hs : r.state.goto .ready = r'.state.goto .ready := (congrArg Ran.state h :)
  have hx : r.result = r'.result := (congrArg Ran.result h :)
  refine ⟨r'.state.seq, ?_⟩
  calc r' = ⟨(r'.state.goto .ready).goto r'.state.seq, r'.result⟩ := rfl
    _ = ⟨(r.state.goto .ready).goto r'.state.seq, r.result⟩ := by rw [hs, hx]

/-! Going on after a sub-operation keeps the agreement, when the steps after it do not look at the label. -/

theorem Ran.andThen_atReady_congr {r r' : Ran α} {f f' : α → State → Ran β} (h : r.atReady = r'.atReady)
    (hf : ∀ a t q, (f a t).atReady = (f' a (t.goto q)).atReady) :
    (r.andThen f).atReady = (r'.andThen f').atReady := by
  obtain ⟨q, rfl⟩ := Ran.eq_goto_of_atReady_eq h
  rcases r.cases with ⟨a, t, rfl⟩ | ⟨e, t, rfl⟩
  · exact hf a t q
  · rfl

theorem Ran.thenRun_atReady_congr {r r' : Ran α} {f f' : α → State → Run β} (h : r.atReady = r'.atReady)
    (hf : ∀ a t q, r = .done a t → Run.atReady (f a t) = Run.atReady (f' a (t.goto q))) :
    Run.atReady (r.thenRun f) = Run.atReady (r'.thenRun f') := by
  obtain ⟨q, rfl⟩ := Ran.eq_goto_of_atReady_eq h
  rcases r.cases with ⟨a, t, rfl⟩ | ⟨e, t, rfl⟩
  · exact hf a t q rfl
  · rfl

theorem Run.andThen_atReady_congr {r r' : Run α} {f f' : α → State → Ran β}
    (h : Run.atReady r = Run.atReady r')
    (hf : ∀ a t q, (f a t).atReady = (f' a (t.goto q)).atReady) :
    Run.atReady (Run.andThen r f) = Run.atReady (Run.andThen r' f') := by
  cases r with
  | ok x =>
    cases r' with
    | ok x' => exact congrArg Except.ok (Ran.andThen_atReady_congr (Except.ok.inj h) hf)
    | error e' => cases h
  | error e =>
    cases r' with
    | ok x' => cases h
    | error e' => exact congrArg Except.error (Except.error.inj h)

/-! The sub-operations, for any two callers. -/

theorem send_atReady (addr : BusAddr) (B : List Byte) (s : State) (a b : Seq) :
    (send addr B (s.goto a)).atReady = (send addr B (s.goto b)).atReady := by
  cases h : writeResultOf s.nextReply with
  | ok =>
    rw [send_ok (by exact h), send_ok (by exact h)]
    rfl
  | err =>
    rw [send_err (by exact h), send_err (by exact h)]
    rfl

theorem wakeW1_atReady (p q : Parent) (s : State) : (wakeW1 p s).atReady = (wakeW1 q s).atReady := by
  rcases wakeW1_cases p s with ⟨h, e⟩ | ⟨h, ⟨hr, e⟩ | ⟨C, hr, hC, e⟩ | ⟨c0, c1, c2, c3, hr, e⟩⟩ <;> rw [e]
  · rw [wakeW1_pulseFails h]
    rfl
  · rw [wakeW1_readFails h hr]
    rfl
  · rw [wakeW1_wrongLength h hr hC]
    rfl
  · rw [wakeW1_response h hr, wakeW4_eq, wakeW4_eq]
    split <;> rfl

theorem idleI1_atReady (p q : Parent) (received : List Byte) (s : State) :
    (idleI1 p received s).atReady = (idleI1 q received s).atReady :=
  Ran.andThen_atReady_congr (send_atReady _ _ s _ _) fun _ _ _ => rfl

theorem receiveFailed_atReady (s : State) (a b : Seq) :
    (receiveFailed (s.goto a)).atReady = (receiveFailed (s.goto b)).atReady := by
  unfold receiveFailed
  by_cases h : s.countFailure.retry = retryMax
  · rw [if_pos (by exact h), if_pos (by exact h)]
    rfl
  · rw [if_neg (by exact h), if_neg (by exact h)]
    rfl

theorem receiveV3_atReady (p q : Parent) (r : BusReply) (s : State) :
    (receiveV3 p r s).atReady = (receiveV3 q r s).atReady := by
  cases r with
  | err => exact receiveFailed_atReady s _ _
  | ok C =>
    by_cases h : goodChunk s C
    · rw [receiveV3_good h, receiveV3_good h]
      rfl
    · rw [receiveV3_bad h, receiveV3_bad h]
      exact receiveFailed_atReady s _ _

theorem receiveV4_atReady (p q : Parent) (s : State) :
    Run.atReady (receiveV4 p s) = Run.atReady (receiveV4 q s) := by
  unfold receiveV4
  split <;> rfl

theorem receiveV2_atReady (p q : Parent) (s : State) :
    Run.atReady (receiveV2 p s) = Run.atReady (receiveV2 q s) := by
  refine receive_induction (P := fun s => Run.atReady (receiveV2 p s) = Run.atReady (receiveV2 q s)) p
    ?_ ?_ s
  · intro s h
    rw [receiveV2_complete h, receiveV2_complete h]
    exact receiveV4_atReady p q s
  · intro s hlt ih
    rw [receiveV2_eq p, receiveV2_eq q, if_pos hlt, if_pos hlt]
    exact Ran.thenRun_atReady_congr (receiveV3_atReady p q _ _) fun _ t _ ht => ih t ht

/-! The command cycle, whoever asked for it, from its last step back to its first. -/

theorem returnPayload_atReady (c : Command) (payload : List Byte) (s : State) :
    (returnPayload c payload s).atReady = (Ran.done payload s).atReady := by
  unfold returnPayload
  split <;> rfl

theorem checkFrame_atReady (L : Nat) (raw : List Byte) (s : State) (a b : Seq) :
    (checkFrame L raw (s.goto a)).atReady = (checkFrame L raw (s.goto b)).atReady := by
  rw [checkFrame_eq, checkFrame_eq]
  split <;> rfl

theorem executeE6_atReady (c : Command) (o : Origin) (received : List Byte) (s : State) :
    (executeE6 { c with origin := o } received s).atReady = (executeE6 c received s).atReady := by
  refine Ran.andThen_atReady_congr (checkFrame_atReady _ received s _ _) fun payload t q => ?_
  rw [returnPayload_atReady, returnPayload_atReady]
  rfl

theorem executeE5_atReady (c : Command) (o : Origin) (received : List Byte) (s : State) :
    (executeE5 { c with origin := o } received s).atReady = (executeE5 c received s).atReady :=
  Ran.andThen_atReady_congr (idleI1_atReady _ _ received s) fun _ t _ => executeE6_atReady c o received t

theorem executeE4_atReady (c : Command) (o : Origin) (s : State) :
    Run.atReady (executeE4 { c with origin := o } s) = Run.atReady (executeE4 c s) :=
  Run.andThen_atReady_congr (receiveV2_atReady _ _ (s.startReceive c.expected)) fun received t _ =>
    executeE5_atReady c o received t

theorem executeE2_atReady (c : Command) (o : Origin) (s : State) :
    Run.atReady (executeE2 { c with origin := o } s) = Run.atReady (executeE2 c s) :=
  Ran.thenRun_atReady_congr
    (send_atReady _ _
      ((s.loadTx (commandFrame c)).withAcc (trailer (commandFrame c) (commandFrame c).length)) _ _)
    fun _ t _ _ => executeE4_atReady c o (t.delay (execDelayOf t.params c.opcode))

theorem executeE1_atReady (c : Command) (o : Origin) (s : State) :
    Run.atReady (executeE1 { c with origin := o } s) = Run.atReady (executeE1 c s) :=
  Ran.thenRun_atReady_congr (wakeW1_atReady _ _ s) fun _ t _ _ => executeE2_atReady c o t

theorem executeE0_refused {c : Command} {s : State}
    (h : ¬ dataFits s.params c.data ∨ ¬ expectedFits c.expected) :
    executeE0 c s = .ok (.raise .invalidArgument s) := if_pos h

theorem executeE0_accepted {c : Command} {s : State}
    (h : ¬ (¬ dataFits s.params c.data ∨ ¬ expectedFits c.expected)) :
    executeE0 c s = executeE1 c (s.goto (.e0 c)) := if_neg h

theorem executeE0_atReady (c : Command) (o : Origin) (q : Seq) (s : State) :
    Run.atReady (executeE0 { c with origin := o } (s.goto q)) = Run.atReady (executeE0 c s) := by
  by_cases h : ¬ dataFits s.params c.data ∨ ¬ expectedFits c.expected
  · rw [executeE0_refused h, executeE0_refused (by exact h)]
    rfl
  · rw [executeE0_accepted h, executeE0_accepted (by exact h)]
    exact executeE1_atReady c o s

/-! ## The zone family -/

/-- The bits of the param1 of a zone read (30_encoding.md R95). -/
theorem getLsbD_zoneParam1 (zone length : Byte) (i : Nat) :
    (zoneParam1 zone length).getLsbD i =
      if i < 7 then zone.getLsbD i else decide (i = 7 ∧ length = readLenLong) := by
  have hbit : ∀ flag : BitVec 1, (flag ++ zone.extractLsb' 0 7).getLsbD i =
      if i < 7 then zone.getLsbD i else flag.getLsbD (i - 7) := by
    intro flag
    rw [BitVec.getLsbD_append]
    split <;> simp [*]
  unfold zoneParam1
  by_cases hi : i < 7
  · split <;> rw [hbit, if_pos hi]
  · have h7 : i - 7 = 0 ↔ i = 7 := by omega
    split <;> rw [hbit, if_neg hi] <;> simp [*]

theorem zoneParam1_short (zone : Byte) : zoneParam1 zone 4 = zone &&& 0x7F := by
  have hmask : ∀ i < 8, (0x7F : Byte).getLsbD i = decide (i < 7) := by decide
  apply BitVec.eq_of_getLsbD_eq
  intro i hi
  rw [getLsbD_zoneParam1, BitVec.getLsbD_and, hmask i hi]
  by_cases h : i < 7 <;> simp [h, readLenLong]

theorem zoneParam1_long (zone : Byte) : zoneParam1 zone 32 = zone ||| 0x80 := by
  have hmask : ∀ i < 8, (0x80 : Byte).getLsbD i = decide (i = 7) := by decide
  apply BitVec.eq_of_getLsbD_eq
  intro i hi
  rw [getLsbD_zoneParam1, BitVec.getLsbD_or, hmask i hi]
  by_cases h : i < 7
  · simp [h, h.ne]
  · simp [show i = 7 by omega, readLenLong]

/-- Settles O46: the flag is the bit above the seven that are passed on. -/
theorem zoneByteCarriesSizeFlag : Obligations.ZoneByteCarriesSizeFlag := by
  intro zone
  refine ⟨getLsbD_zoneParam1 zone 32 7, getLsbD_zoneParam1 zone 4 7, fun i hi => ?_⟩
  exact ⟨(getLsbD_zoneParam1 zone 32 i).trans (if_pos hi), (getLsbD_zoneParam1 zone 4 i).trans (if_pos hi)⟩

/-- A zone read of a length it accepts is EXECUTE of its command (45_zone.md R221): it goes through two labels and
the cycle, and only the labels tell who asked. -/
theorem exec_zoneRead_eq_execute {length : Byte} (h : readLengthOk length) (zone : Byte) (address : Half)
    (s : State) : exec (.zoneRead zone address length) s =
      exec (.execute s.params.opRead (zoneParam1 zone length) address (zoneExpected length) []) s := by
  have hcycle : zoneReadZ1 zone address length s =
      executeE0 (zoneCommand s.params (zoneParam1 zone length) address length)
        (s.goto (.z3 (zoneParam1 zone length) address length)) := if_neg (not_not_intro h)
  calc exec (.zoneRead zone address length) s
    _ = finishRun (executeE0 (zoneCommand s.params (zoneParam1 zone length) address length)
          (s.goto (.z3 (zoneParam1 zone length) address length))) := congrArg finishRun hcycle
    _ = _ := finishRun_congr (executeE0_atReady
          ⟨s.params.opRead, zoneParam1 zone length, address, [], zoneExpected length, .request⟩ .zoneRead _ s)

/-- Settles O47: the two accepted lengths of `exec_zoneRead_eq_execute`, the flagged zone byte written as a mask. -/
theorem zoneReadIsExecuteOfReadCommand : Obligations.ZoneReadIsExecuteOfReadCommand := by
  intro zone address s
  rw [exec_zoneRead_eq_execute (length := 4) (.inl rfl), exec_zoneRead_eq_execute (length := 32) (.inr rfl),
    zoneParam1_short, zoneParam1_long]
  exact ⟨rfl, rfl⟩

end Sys2Proof.Machine

/-! ## The checksum family (40_checksum.md)

First the algorithm, then how each of the three requests is written, then what each of them does to the state: one
response, and `ACC` alone is written. -/

namespace Sys2Proof.Machine

/-! The algorithm (R120 to R123). -/

/-- The top bit is bit 15, the constant `poly` is 0x8005, and the condition is R120's. -/
theorem crcStep_eq (acc : Half) (d : Bool) :
    crcStep acc d = if d ≠ acc.getLsbD 15 then (acc <<< 1) ^^^ 0x8005 else acc <<< 1 := by
  have hmsb : acc.msb = acc.getLsbD 15 := acc.msb_eq_getLsbD_last
  rw [crcStep, hmsb, ite_not, poly]

theorem crcByte_eq_steps (acc : Half) (b : Byte) : crcByte acc b =
    crcStep (crcStep (crcStep (crcStep (crcStep (crcStep (crcStep (crcStep acc (b.getLsbD 0))
      (b.getLsbD 1)) (b.getLsbD 2)) (b.getLsbD 3)) (b.getLsbD 4)) (b.getLsbD 5)) (b.getLsbD 6))
      (b.getLsbD 7) := rfl

@[simp] theorem crcUpdate_nil (acc : Half) : crcUpdate acc [] = acc := rfl

@[simp] theorem crcUpdate_cons (acc : Half) (b : Byte) (B : List Byte) :
    crcUpdate acc (b :: B) = crcUpdate (crcByte acc b) B := rfl

@[simp] theorem crc16_nil : crc16 [] = 0x0000 := rfl

@[simp] theorem crcByte_zero_zero : crcByte 0x0000 0x00 = 0x0000 := by decide

theorem crcUpdate_zero_replicate_zero (n : Nat) : crcUpdate 0x0000 (List.replicate n 0x00) = 0x0000 := by
  induction n with
  | zero => rw [List.replicate_zero, crcUpdate_nil]
  | succ n ih => rw [List.replicate_succ, crcUpdate_cons, crcByte_zero_zero, ih]

/-! The requests (30_encoding.md R81, R82). -/

theorem decode_crcBegin : decode [0x10] = .ok .crcBegin := rfl

theorem decode_crcUpdate {n : Byte} {B : List Byte} (h : B.length = n.toNat) :
    decode (0x11 :: n :: B) = .ok (.crcUpdate B) := if_pos h

theorem decode_crcEnd : decode [0x12] = .ok .crcEnd := rfl

/-! The operations (R124 to R126). -/

theorem exec_crcBegin (s : State) : exec .crcBegin s = .next ((s.withAcc 0x0000).respond (.ok [])) :=
  finish_done [] _

theorem exec_crcUpdate (B : List Byte) (s : State) :
    exec (.crcUpdate B) s = .next ((s.withAcc (crcUpdate s.acc B)).respond (.ok [])) :=
  finish_done [] _

theorem exec_crcEnd (s : State) : exec .crcEnd s = .next (s.respond (.ok (le16 s.acc))) :=
  finish_done _ s

/-- Settles O12: the condition of the bit step is `crcStep_eq`, and the rest are the equations of the two folds. -/
theorem checksumIsStatedAlgorithm : Obligations.ChecksumIsStatedAlgorithm :=
  ⟨crcStep_eq, crcByte_eq_steps, crcUpdate_nil, crcUpdate_cons, fun _ => rfl, crc16_nil⟩

/-- Settles O13: the response of `exec_crcBegin`, sent from the state with `ACC` cleared. -/
theorem crcBeginClearsAcc : Obligations.CrcBeginClearsAcc :=
  ⟨decode_crcBegin, exec_crcBegin⟩

/-- Settles O14: `exec_crcUpdate` folds into any `ACC`; a zero byte keeps a zero accumulator, so by induction any
number of them does; the example is evaluated. -/
theorem crcUpdateFoldsBytesIntoAcc : Obligations.CrcUpdateFoldsBytesIntoAcc :=
  ⟨fun _ _ => decode_crcUpdate, exec_crcUpdate, crcUpdate_nil, crcUpdate_zero_replicate_zero, by decide +kernel⟩

/-- Settles O15: the value sent is `le16` of an `ACC` that `exec_crcEnd` keeps; the example is evaluated. -/
theorem crcEndReturnsAcc : Obligations.CrcEndReturnsAcc :=
  ⟨decode_crcEnd, exec_crcEnd, rfl, by decide +kernel⟩

end Sys2Proof.Machine

/-! ## The power family (41_power.md)

The three operations begin with one bus write, whose failure ends them (`finish_writeFails`). What SLEEP and IDLE do
after it is one write of `PST` (`finish_writeThenPst`); WAKE goes on to its delay and its read (`wakeRead_eq`), and what
was read decides its end (`exec_wake_response`). -/

namespace Sys2Proof.Machine

/-! The requests (30_encoding.md R81). -/

theorem decode_wake : decode [0x20] = .ok .wake := rfl

theorem decode_idle : decode [0x21] = .ok .idle := rfl

theorem decode_sleep : decode [0x22] = .ok .sleep := rfl

/-! One bus write and what follows it. -/

/-- `State.afterWrite`, the transport's answer known. -/
theorem State.afterWrite_of_reply {s : State} {r : BusReply} (h : s.nextReply = r) (addr : BusAddr) (B : List Byte) :
    s.afterWrite addr B = s.dropReply.emit (.wr addr B (writeResultOf r)) := by
  rw [State.afterWrite, h]

/-- An operation whose first write fails: nothing after it is performed. -/
theorem finish_writeFails {s : State} (h : s.nextReply = .err) (addr : BusAddr) (B : List Byte) (q : Seq)
    (f : Unit → State → Ran Unit) :
    finish (returnUnit ((send addr B (s.goto q)).andThen f)) = .next { s.dropReply with
      pst := .unknown, trace := s.trace ++ [.wr addr B .err], seq := .ready,
      responses := s.responses ++ [.error .transportError] } := by
  have hq : (s.goto q).nextReply = .err := h
  rw [send_err (congrArg writeResultOf hq), State.afterWrite_of_reply hq]
  rfl

/-- An operation that is one write and then the new `PST`, its write done. -/
theorem finish_writeThenPst {s : State} {C : List Byte} (h : s.nextReply = .ok C) (addr : BusAddr) (B : List Byte)
    (q q' : Seq) (v : PowerState) :
    finish (returnUnit ((send addr B (s.goto q)).andThen fun _ t => .done () ((t.goto q').withPst v))) =
      .next { s.dropReply with
        pst := v, trace := s.trace ++ [.wr addr B .ok], seq := .ready,
        responses := s.responses ++ [.ok []] } := by
  have hq : (s.goto q).nextReply = .ok C := h
  rw [send_ok (congrArg writeResultOf hq), State.afterWrite_of_reply hq]
  rfl

/-- Settles O28: IDLE is one write and then `PST` Idle. -/
theorem idleRunsAsStated : Obligations.IdleRunsAsStated :=
  ⟨decode_idle, fun s =>
    ⟨fun _ h => finish_writeThenPst h s.params.devAddr [s.params.waIdle] (.i1 .host []) (.i2 .host []) .idle,
     fun h => finish_writeFails h s.params.devAddr [s.params.waIdle] (.i1 .host []) _⟩⟩

/-- Settles O29: SLEEP is one write and then `PST` Sleeping. -/
theorem sleepRunsAsStated : Obligations.SleepRunsAsStated :=
  ⟨decode_sleep, fun s =>
    ⟨fun _ h => finish_writeThenPst h s.params.devAddr [s.params.waSleep] .s1 .s2 .sleeping,
     fun h => finish_writeFails h s.params.devAddr [s.params.waSleep] .s1 _⟩⟩

/-! WAKE after its pulse. The updates of a step commute with taking an answer, so all that steps W1 to W3 do can be
written as updates of the state whose two answers are taken. -/

theorem State.dropReply_goto (s : State) (q : Seq) : (s.goto q).dropReply = s.dropReply.goto q := rfl

theorem State.dropReply_emit (s : State) (e : Event) : (s.emit e).dropReply = s.dropReply.emit e := rfl

theorem State.emit_goto (s : State) (q : Seq) (e : Event) : (s.goto q).emit e = (s.emit e).goto q := rfl

theorem State.goto_goto (s : State) (q q' : Seq) : (s.goto q).goto q' = s.goto q' := rfl

/-- When step W3 has its answer, two answers are taken, three events have happened, and nothing else has changed. -/
theorem wakeRead_eq {s : State} {r : BusReply} (p : Parent) (h : writeResultOf s.nextReply = .ok)
    (hr : s.dropReply.nextReply = r) :
    wakeRead p s = { s.dropReply.dropReply with
      seq := .w3 p
      trace := s.trace ++
        [.wr s.params.wakeAddr [0x00] .ok, .dl s.params.tWhi, .rd s.params.devAddr 4 r] } := by
  have hrun : wakeRead p s = (((s.dropReply.dropReply.emit (.wr s.params.wakeAddr wakePulse .ok)).emit
      (.dl s.params.tWhi)).emit (.rd s.params.devAddr wakeRspLen r)).goto (.w3 p) := by
    simp only [wakeRead, State.afterRead, State.afterWrite, State.delay, State.dropReply_goto,
      State.dropReply_emit, State.emit_goto, State.goto_goto, State.goto_nextReply, State.emit_nextReply, h, hr]
  rw [hrun, State.emit, State.emit_trace, State.emit_trace, List.append_assoc, List.append_assoc]
  rfl

/-- A buffer filled from index 0 on. -/
theorem Memory.read_writeAll_zero (m : Memory) (C : List Byte) (a : Nat) :
    (m.writeAll 0 C).read a = if a < C.length then C[a]? else m.read a := by
  rw [Memory.read_writeAll]
  simp

theorem exec_wake (s : State) : exec .wake s = finish (returnUnit (wakeW1 .host s)) := rfl

/-- `WAKE_CRC` is the value that 00_scope.md R8 prints. -/
theorem wakeCrc_eq : wakeCrc = 0x4333 := by decide +kernel

/-- Both tests of step W4 on the first two bytes of a wake response. -/
abbrev wakeVerified (c0 c1 : Byte) : Prop := c1 = 0x11 ∧ crc16 [c0, c1] = 0x4333

/-- How WAKE ends from step W4: `ACC` is written either way, the tests decide `PST` and the result. -/
theorem finish_wakeW4 (p : Parent) (c0 c1 : Byte) (s : State) :
    finish (returnUnit (wakeW4 p c0 c1 s)) = .next (((s.withAcc (crc16 [c0, c1])).withPst
      (if wakeVerified c0 c1 then .awake else .unknown)).respond
      (if wakeVerified c0 c1 then .ok [] else .error .wakeVerificationFailed)) := by
  rw [wakeW4_eq, wakeCrc_eq]
  by_cases hgood : wakeVerified c0 c1
  · rw [if_pos hgood, if_pos hgood, if_pos (by exact hgood)]
    rfl
  · rw [if_neg hgood, if_neg hgood, if_neg (by exact hgood)]
    rfl

/-- The whole of WAKE with four bytes read. -/
theorem exec_wake_response {s : State} {c0 c1 c2 c3 : Byte} (h : writeResultOf s.nextReply = .ok)
    (hr : s.dropReply.nextReply = .ok [c0, c1, c2, c3]) :
    exec .wake s = .next { s.dropReply.dropReply with
      acc := crc16 [c0, c1]
      pst := if wakeVerified c0 c1 then .awake else .unknown
      rxbuf := s.rxbuf.writeAll 0 [c0, c1, c2, c3]
      seq := .ready
      responses := s.responses ++ [if wakeVerified c0 c1 then .ok [] else .error .wakeVerificationFailed]
      trace := s.trace ++ [.wr s.params.wakeAddr [0x00] .ok, .dl s.params.tWhi,
        .rd s.params.devAddr 4 (.ok [c0, c1, c2, c3])] } := by
  rw [exec_wake, wakeW1_response h hr, finish_wakeW4, wakeRead_eq .host h hr]
  simp only [State.storeRx, State.withAcc, State.withPst, State.respond, State.dropReply_rxbuf,
    State.dropReply_responses]

/-- Settles O26: a failed pulse ends WAKE as a failed write ends IDLE; else the read decides, and `wakeRead_eq` says
what the bus has seen by then. -/
theorem wakeRunsAsStated : Obligations.WakeRunsAsStated := by
  refine ⟨decode_wake, fun s => ⟨fun h => ?pulseFails, fun B h hr => ?readFails, fun B C h hr hC => ?wrongLength,
    fun B c0 c1 c2 c3 h hr => ?response⟩⟩
  case pulseFails => exact finish_writeFails h s.params.wakeAddr wakePulse (.w1 .host) _
  all_goals have hpulse : writeResultOf s.nextReply = .ok := congrArg writeResultOf h
  case readFails =>
    rw [exec_wake, wakeW1_readFails hpulse hr, returnUnit_lose, finish_lose, wakeRead_eq .host hpulse hr]
    simp only [State.respond, State.withPst, State.dropReply_responses]
  case wrongLength =>
    rw [exec_wake, wakeW1_wrongLength hpulse hr hC, returnUnit_lose, finish_lose, wakeRead_eq .host hpulse hr]
    simp only [State.respond, State.withPst, State.dropReply_responses]
  case response =>
    refine ⟨_, exec_wake_response hpulse hr, rfl, rfl,
      Memory.read_writeAll_zero s.rxbuf _, fun hgood => ?_, fun hbad => ?_,
      ⟨rfl, rfl⟩, ⟨rfl, rfl, rfl⟩, ⟨rfl, fun _ => rfl⟩, ⟨rfl, rfl⟩⟩
    · rw [if_pos hgood, if_pos hgood]
      exact ⟨rfl, rfl, rfl⟩
    · rw [if_neg hbad, if_neg hbad]
      exact ⟨rfl, rfl, rfl⟩

end Sys2Proof.Machine

/-! ## The frame codec family (42_frame_codec.md)

A sequence that ends in two bytes has their value as its trailer (`trailer_append_pair`); so the trailer of a frame is
its checksum (`trailer_encodeFrame`), and the checksum test of DECODE compares the last two bytes
(`trailer_eq_iff_drop`). -/

namespace Sys2Proof.Machine

/-! The trailing two bytes (00_scope.md R12). -/

theorem trailer_append_pair (B : List Byte) (a b : Byte) :
    trailer (B ++ [a, b]) (B ++ [a, b]).length = fromLe16 a b := by
  simp [trailer]

/-- Two bytes assemble to a value exactly when they are its bytes, low byte first. -/
theorem fromLe16_eq_iff {a b : Byte} {v : Half} : fromLe16 a b = v ↔ [a, b] = le16 v := by
  constructor
  · rintro rfl
    exact (le16_fromLe16 a b).symm
  · intro h
    obtain ⟨rfl, rfl⟩ : a = lo8 v ∧ b = hi8 v := by simpa [le16] using h
    exact fromLe16_le16 v

/-- A sequence of the stated length ends in two bytes that make up its trailer. -/
theorem trailer_eq_iff_drop {raw : List Byte} {L : Nat} (hlen : raw.length = L) (hL : 2 ≤ L) (v : Half) :
    trailer raw L = v ↔ raw.drop (L - 2) = le16 v := by
  obtain ⟨a, b, hab⟩ : ∃ a b, raw.drop (L - 2) = [a, b] :=
    List.length_eq_two.mp (by rw [List.length_drop]; omega)
  have hraw : raw.take (L - 2) ++ [a, b] = raw := by rw [← hab, List.take_append_drop]
  have htrailer : trailer raw L = fromLe16 a b := by
    rw [← trailer_append_pair (raw.take (L - 2)), hraw, hlen]
  rw [htrailer, hab, fromLe16_eq_iff]

/-! The command frame (R160). -/

theorem length_encodeFrame (opcode param1 : Byte) (param2 : Half) (data : List Byte) :
    (encodeFrame opcode param1 param2 data).length = 8 + data.length := by
  simp [encodeFrame, frameBody, le16]
  omega

theorem trailer_encodeFrame (opcode param1 : Byte) (param2 : Half) (data : List Byte) :
    trailer (encodeFrame opcode param1 param2 data) (encodeFrame opcode param1 param2 data).length =
      crc16 (frameBody opcode param1 param2 data) :=
  (trailer_append_pair (wordMarker :: frameBody opcode param1 param2 data) _ _).trans (fromLe16_le16 _)

/-- A frame that `MAX_DATA` allows has a length that `TXLEN` holds (10_state.md R30). -/
theorem toNat_ofNat_length_encodeFrame {p : Params} {data : List Byte} (h : dataFits p data) (opcode param1 : Byte)
    (param2 : Half) :
    (BitVec.ofNat 9 (encodeFrame opcode param1 param2 data).length).toNat =
      (encodeFrame opcode param1 param2 data).length := by
  have hmax : p.maxData.val < 249 := p.maxData.isLt
  rw [length_encodeFrame, BitVec.toNat_ofNat, Nat.mod_eq_of_lt (by omega)]

/-! The requests (30_encoding.md R83, R84). -/

theorem decode_encodeRequest {n : Byte} {data : List Byte} (h : data.length = n.toNat) (opcode param1 lo hi : Byte) :
    decode (0x30 :: opcode :: param1 :: lo :: hi :: n :: data) =
      .ok (.encode opcode param1 (fromLe16 lo hi) data) := if_pos h

theorem decode_decodeRequest {n : Byte} {raw : List Byte} (h : raw.length = n.toNat) (expected : Byte) :
    decode (0x31 :: expected :: n :: raw) = .ok (.decode expected raw) := if_pos h

/-! The operations (R161, R164). -/

theorem exec_encode_fits {s : State} {data : List Byte} (h : dataFits s.params data) (opcode param1 : Byte)
    (param2 : Half) :
    exec (.encode opcode param1 param2 data) s =
      .next (((s.loadTx (encodeFrame opcode param1 param2 data)).withAcc
        (crc16 (frameBody opcode param1 param2 data))).respond (.ok (encodeFrame opcode param1 param2 data))) := by
  rw [← trailer_encodeFrame]
  exact if_neg (not_not_intro h)

theorem exec_encode_tooLong {s : State} {data : List Byte} (h : ¬ dataFits s.params data) (opcode param1 : Byte)
    (param2 : Half) :
    exec (.encode opcode param1 param2 data) s = .next (s.respond (.error .invalidArgument)) := if_pos h

theorem exec_decode_guard {expected : Byte} (hL : ¬ expectedFits expected) (raw : List Byte) (s : State) :
    exec (.decode expected raw) s = .next (s.respond (.error .invalidArgument)) := if_pos hL

section
variable {expected : Byte} {raw : List Byte} (hL : expectedFits expected)
include hL

theorem exec_decode_wrongLength (hlen : raw.length ≠ expected.toNat) (s : State) :
    exec (.decode expected raw) s = .next (s.respond (.error .shortResponse)) :=
  (if_neg (not_not_intro hL)).trans (if_pos hlen)

variable (hlen : raw.length = expected.toNat)
include hlen

/-- DECODE past its guard and its length test is the checksum test. -/
theorem exec_decode_checkFrame (s : State) :
    exec (.decode expected raw) s = finish (checkFrame expected.toNat raw s) :=
  (if_neg (not_not_intro hL)).trans (if_neg (not_not_intro hlen))

/-- The test of `checkFrame` on a response of the right length, as a comparison of the last two bytes. -/
theorem trailer_eq_covered_iff_drop :
    trailer raw expected.toNat = crc16 (coveredPart raw expected.toNat) ↔
      raw.drop (expected.toNat - 2) = le16 (crc16 (coveredPart raw expected.toNat)) :=
  trailer_eq_iff_drop hlen (Nat.le_of_succ_le hL) _

theorem exec_decode_checksumMismatch
    (hsum : raw.drop (expected.toNat - 2) ≠ le16 (crc16 (coveredPart raw expected.toNat))) (s : State) :
    exec (.decode expected raw) s =
      .next ((s.withAcc (crc16 (coveredPart raw expected.toNat))).respond (.error .checksumMismatch)) := by
  rw [exec_decode_checkFrame hL hlen, checkFrame_eq, if_neg (mt (trailer_eq_covered_iff_drop hL hlen).mp hsum),
    finish_raise]

theorem exec_decode_ok
    (hsum : raw.drop (expected.toNat - 2) = le16 (crc16 (coveredPart raw expected.toNat))) (s : State) :
    exec (.decode expected raw) s =
      .next ((s.withAcc (crc16 (coveredPart raw expected.toNat))).respond
        (.ok (payloadPart raw expected.toNat))) := by
  rw [exec_decode_checkFrame hL hlen, checkFrame_eq, if_pos ((trailer_eq_covered_iff_drop hL hlen).mpr hsum),
    finish_done]

end

/-- Settles O22: the frame of the statement is `encodeFrame`, and `exec_encode_fits` says where it and its checksum
go. -/
theorem encodeReturnsFrame : Obligations.EncodeReturnsFrame := by
  refine ⟨fun opcode param1 lo hi _ _ h => decode_encodeRequest h opcode param1 lo hi,
    fun opcode param1 param2 data s h => ?_,
    fun opcode param1 param2 _ _ h => exec_encode_tooLong (Nat.not_le.mpr h) opcode param1 param2⟩
  exact ⟨_, exec_encode_fits h opcode param1 param2, ⟨rfl, rfl⟩,
    ⟨toNat_ofNat_length_encodeFrame h opcode param1 param2, Memory.read_writeAll_zero s.txbuf _⟩, rfl,
    rfl, ⟨rfl, rfl, rfl⟩, fun _ => rfl, ⟨rfl, rfl, rfl⟩, rfl, rfl⟩

/-- Settles O23: each branch of the statement is one of the four endings of DECODE, in the rule's order. -/
theorem decodeValidatesResponse : Obligations.DecodeValidatesResponse := by
  refine ⟨fun expected _ _ h => decode_decodeRequest h expected, fun expected raw s => ?_⟩
  intro L c
  split_ifs with hguard hlen hsum
  · exact exec_decode_guard (Nat.not_le.mpr hguard) raw s
  · exact exec_decode_wrongLength (Nat.not_lt.mp hguard) hlen s
  · exact exec_decode_checksumMismatch (Nat.not_lt.mp hguard) (not_not.mp hlen) hsum s
  · exact exec_decode_ok (Nat.not_lt.mp hguard) (not_not.mp hlen) (not_not.mp hsum) s

end Sys2Proof.Machine

/-! ## The transport family (43_transport.md)

Pass by pass, the loop of RECEIVE does what `gather` does with the next answer. `Gathering` relates the two: it holds
when the loop is entered (`Gathering.start`), each operation of a pass keeps it, and both sides end in the same way
(`ReceiveEnds`). `Gathering.ends` puts the passes together, by induction on the answers still to come. -/

namespace Sys2Proof.Machine

/-! The answers to come depend on the script and the oracle alone. -/

theorem repliesLeft.nextReply_eq {u t : State} (h : repliesLeft u t) : t.nextReply = u.nextReply := by
  obtain ⟨hscript, horacle⟩ := h
  rw [State.nextReply, State.nextReply, hscript, horacle]

theorem repliesLeft.dropReply {u t : State} (h : repliesLeft u t) : repliesLeft u.dropReply t.dropReply := by
  obtain ⟨hscript, horacle⟩ := h
  simp [repliesLeft, hscript, horacle]

/-- `dropReplies` can take its last answer last. -/
theorem dropReplies_succ (n : Nat) (s : State) : dropReplies (n + 1) s = (dropReplies n s).dropReply := by
  induction n generalizing s with
  | zero => rfl
  | succ n ih => exact ih s.dropReply

/-! `gather`, one equation a case. -/

/-- The chunk `C` is a good read of a receive of `total` bytes with `got` of them stored (R190). -/
abbrev chunkFits (total : Nat) (got C : List Byte) : Prop := 1 ≤ C.length ∧ C.length ≤ min 32 (total - got.length)

section
variable {dev : BusAddr} {total failed : Nat} {got : List Byte} {events : List Event}

theorem gather_complete (h : total ≤ got.length) (replies : List BusReply) :
    gather dev total got failed events replies = some ⟨false, got, failed, events⟩ := by
  cases replies <;> exact if_pos h

variable {r : BusReply} {rest : List BusReply} (h : ¬ total ≤ got.length)
include h

theorem gather_good {C : List Byte} (hC : chunkFits total got C) :
    gather dev total got failed events (.ok C :: rest) = gather dev total (got ++ C) failed
      (events ++ [.rd dev (min 32 (total - got.length)) (.ok C)]) rest :=
  (if_neg h).trans (if_pos hC)

variable (hr : ∀ C, r = .ok C → ¬ chunkFits total got C)
include hr

theorem gather_bad :
    gather dev total got failed events (r :: rest) =
      if failed + 1 = 20
      then some ⟨true, got, 20, events ++ [.rd dev (min 32 (total - got.length)) r]⟩
      else gather dev total got (failed + 1) (events ++ [.rd dev (min 32 (total - got.length)) r]) rest := by
  cases r with
  | err => exact if_neg h
  | ok C => exact (if_neg h).trans (if_neg (hr C rfl))

end

/-! The relation between the two, and what one pass does to it. -/

/-- The loop of a receive of `total` bytes, entered from `s₀`, is at `s` when `gather` has stored `got`, has counted
`failed` failed reads and has made the reads `events`. -/
structure Gathering (s₀ : State) (total : Byte) (got : List Byte) (failed : Nat) (events : List Event)
    (s : State) : Prop where
  total_eq : s.total = total
  cur_eq : s.cur.toNat = got.length
  within : got.length ≤ total.toNat
  retry_eq : s.retry.toNat = failed
  rx : rxHolds s₀ s got
  trace_eq : s.trace = s₀.trace ++ events
  replies : repliesLeft (dropReplies events.length s₀) s
  pst_eq : s.pst = s₀.pst
  acc_eq : s.acc = s₀.acc
  tx : keepsTx s₀ s
  host : keepsHost s₀ s
  responses_eq : s.responses = s₀.responses

namespace Gathering

variable {s₀ s : State} {total : Byte} {got : List Byte} {failed : Nat} {events : List Event}

theorem start (total : Byte) (s₀ : State) (q : Seq) :
    Gathering s₀ total [] 0 [] ((s₀.goto q).startReceive total) where
  total_eq := rfl
  cur_eq := rfl
  within := Nat.zero_le _
  retry_eq := rfl
  rx _ := rfl
  trace_eq := (List.append_nil _).symm
  replies := ⟨rfl, rfl⟩
  pst_eq := rfl
  acc_eq := rfl
  tx := ⟨rfl, fun _ => rfl⟩
  host := ⟨rfl, rfl⟩
  responses_eq := rfl

variable (h : Gathering s₀ total got failed events s)
include h

theorem goto (q : Seq) : Gathering s₀ total got failed events (s.goto q) := { h with }

theorem chunkSize_eq : chunkSize s = min 32 (total.toNat - got.length) := by
  rw [chunkSize, h.total_eq, h.cur_eq, chunkMax]

theorem goodChunk_iff (C : List Byte) : goodChunk s C ↔ chunkFits total.toNat got C := by
  rw [goodChunk, h.chunkSize_eq]

theorem cur_lt_total_iff : s.cur < s.total ↔ ¬ total.toNat ≤ got.length := by
  rw [BitVec.lt_def, h.total_eq, h.cur_eq, Nat.not_le]

theorem nextReplies_succ_eq (n : Nat) (e : Event) :
    nextReplies (n + 1) (dropReplies events.length s₀) =
      s.nextReply :: nextReplies n (dropReplies (events ++ [e]).length s₀) := by
  rw [nextReplies, h.replies.nextReply_eq, List.length_append, List.length_singleton, dropReplies_succ]

/-- Steps V2 and V3 up to the test of the answer. -/
theorem read (q q' : Seq) :
    Gathering s₀ total got failed
      (events ++ [.rd s₀.params.devAddr (min 32 (total.toNat - got.length)) s.nextReply])
      (((s.goto q).afterRead s.params.devAddr (chunkSize s)).goto q') :=
  { h with
    trace_eq := by
      rw [State.goto_trace, State.afterRead_trace, State.goto_trace, State.goto_nextReply, h.trace_eq,
        h.host.1, h.chunkSize_eq, List.append_assoc]
    replies := by
      rw [List.length_append, List.length_singleton, dropReplies_succ]
      exact h.replies.dropReply }

theorem store {C : List Byte} (hC : goodChunk s C) :
    Gathering s₀ total (got ++ C) failed events ((s.storeRx s.cur.toNat C).advance C.length) := by
  obtain ⟨hcur, hle⟩ := cur_advance hC
  rw [h.cur_eq] at hcur hle
  rw [h.total_eq] at hle
  refine { h with cur_eq := ?_, within := ?_, rx := fun a => ?_ }
  · rw [State.advance_cur, List.length_append]
    exact hcur
  · rw [List.length_append]
    exact hle
  · rw [State.advance_rxbuf, State.storeRx_rxbuf, Memory.read_writeAll, h.cur_eq, h.rx, List.length_append]
    by_cases hold : a < got.length
    · rw [if_neg (by omega), if_pos hold, if_pos (by omega), List.getElem?_append_left hold]
    · rw [if_neg hold, List.getElem?_append_right (Nat.not_lt.mp hold)]
      exact if_congr (by omega) rfl rfl

theorem countFailure (hf : failed < 20) : Gathering s₀ total got (failed + 1) events s.countFailure :=
  { h with
    retry_eq := by
      have hwidth : failed + 1 < 2 ^ 5 := by omega
      rw [State.countFailure_retry, BitVec.toNat_add, h.retry_eq]
      exact Nat.mod_eq_of_lt hwidth }

theorem lastFailure_iff (hf : failed < 20) : s.retry + 1 = retryMax ↔ failed + 1 = 20 := by
  rw [← BitVec.toNat_inj, ← State.countFailure_retry, (h.countFailure hf).retry_eq]
  rfl

end Gathering

/-! The two ends of a receive. -/

/-- The operation begun in `s` has ended in `t` as the receive `g` of `total` bytes ends. -/
abbrev ReceiveEnds (s : State) (total : Byte) (g : Gathered) (t : State) : Prop :=
  t.trace = s.trace ++ g.events ∧
  repliesLeft (dropReplies g.events.length s) t ∧
  t.retry.toNat = g.failed ∧ t.cur.toNat = g.got.length ∧ t.total = total ∧
  (g.exhausted = true → t.pst = .unknown ∧ endsWith s t (.error .receiveExhausted)) ∧
  (g.exhausted = false → t.pst = s.pst ∧ endsWith s t (.ok g.got) ∧ rxHolds s t g.got ∧
    g.got.length = total.toNat) ∧
  t.acc = s.acc ∧ keepsTx s t ∧ keepsHost s t

/-- Step V4 with all of `RXBUF[0 .. TOTAL-1]` written. -/
theorem receiveV4_of_readAll {s : State} {bytes : List Byte} (h : s.rxbuf.readAll 0 s.total.toNat = some bytes)
    (p : Parent) : receiveV4 p s = .ok (.done bytes (s.goto (.v4 p))) := by
  rw [receiveV4, h]

namespace Gathering

variable {s₀ s : State} {total : Byte} {got : List Byte} {failed : Nat} {events : List Event}
  (h : Gathering s₀ total got failed events s)
include h

theorem readAll_eq (hc : got.length = total.toNat) : s.rxbuf.readAll 0 s.total.toNat = some got := by
  rw [h.total_eq, Memory.readAll_eq_some]
  refine ⟨hc, fun i hi => ?_⟩
  rw [Nat.zero_add, h.rx, if_pos (hc ▸ hi)]

section
variable (hc : total.toNat ≤ got.length)
include hc

theorem length_got : got.length = total.toNat := Nat.le_antisymm h.within hc

theorem finishRun_complete (p : Parent) : finishRun (receiveV2 p s) = .next (s.respond (.ok got)) := by
  have hstop : ¬ s.cur < s.total := mt h.cur_lt_total_iff.mp (not_not_intro hc)
  rw [receiveV2_complete hstop, receiveV4_of_readAll ((h.goto _).readAll_eq (h.length_got hc))]
  rfl

theorem complete_ends : ReceiveEnds s₀ total ⟨false, got, failed, events⟩ (s.respond (.ok got)) :=
  ⟨h.trace_eq, h.replies, h.retry_eq, h.cur_eq, h.total_eq, nofun,
    fun _ => ⟨h.pst_eq, ⟨congrArg (· ++ _) h.responses_eq, rfl⟩, h.rx, h.length_got hc⟩,
    h.acc_eq, h.tx, h.host⟩

end

theorem exhausted_ends :
    ReceiveEnds s₀ total ⟨true, got, failed, events⟩
      ((s.forgetRx.withPst .unknown).respond (.error .receiveExhausted)) :=
  ⟨h.trace_eq, h.replies, h.retry_eq, h.cur_eq, h.total_eq,
    fun _ => ⟨rfl, congrArg (· ++ _) h.responses_eq, rfl⟩, nofun, h.acc_eq, h.tx, h.host⟩

/-- From any pass on, the loop and `gather` end alike. Every good read lowers the number of missing bytes and every
other one the number of failures left, so `n` answers are enough. -/
theorem ends (p : Parent) (n : Nat) (hf : failed < 20) (hn : total.toNat - got.length + (19 - failed) ≤ n) :
    ∃ g t, gather s₀.params.devAddr total.toNat got failed events
        (nextReplies n (dropReplies events.length s₀)) = some g ∧
      finishRun (receiveV2 p s) = .next t ∧ ReceiveEnds s₀ total g t := by
  induction n generalizing s got failed events with
  | zero =>
    have hc : total.toNat ≤ got.length := by omega
    exact ⟨_, _, gather_complete hc _, h.finishRun_complete hc p, h.complete_ends hc⟩
  | succ n ih =>
    by_cases hc : total.toNat ≤ got.length
    · exact ⟨_, _, gather_complete hc _, h.finishRun_complete hc p, h.complete_ends hc⟩
    have hlt : s.cur < s.total := h.cur_lt_total_iff.mpr hc
    have hread := h.read (.v2 p) (.v3 p s.nextReply)
    rw [h.nextReplies_succ_eq n (.rd s₀.params.devAddr (min 32 (total.toNat - got.length)) s.nextReply)]
    by_cases hgood : ∃ C, s.nextReply = .ok C ∧ goodChunk s C
    · obtain ⟨C, hr, hC⟩ := hgood
      have hpos : 1 ≤ C.length := hC.1
      rw [hr] at hread ⊢
      rw [gather_good hc ((h.goodChunk_iff C).mp hC), receiveV2_good hlt hr hC]
      exact ih (hread.store hC) hf (by rw [List.length_append]; omega)
    · have hbad : ∀ C, s.nextReply = .ok C → ¬ goodChunk s C := fun C hr hC => hgood ⟨C, hr, hC⟩
      rw [gather_bad hc fun C hr => mt (h.goodChunk_iff C).mpr (hbad C hr)]
      by_cases hlast : failed + 1 = 20
      · rw [if_pos hlast, receiveV2_exhausted hlt hbad ((h.lastFailure_iff hf).mpr hlast)]
        have hend := (hread.countFailure hf).exhausted_ends
        rw [hlast] at hend
        exact ⟨_, _, rfl, finish_lose _ _, hend⟩
      · rw [if_neg hlast, receiveV2_failed hlt hbad (mt (h.lastFailure_iff hf).mp hlast)]
        exact ih (hread.countFailure hf) (by omega) (by omega)

end Gathering

theorem decode_receive (total : Byte) : decode [0x40, total] = .ok (.receive total) := rfl

theorem exec_receive (total : Byte) (s : State) :
    exec (.receive total) s = finishRun (receiveV2 .host ((s.goto (.v1 .host total)).startReceive total)) := rfl

/-- Settles O31: the loop is entered as `gather` begins, with `total` bytes missing and 19 failures that do not end it,
and from there `Gathering.ends`. -/
theorem receiveRefinesGather : Obligations.ReceiveRefinesGather := fun total s =>
  ⟨decode_receive total,
    (Gathering.start total s (.v1 .host total)).ends .host (total.toNat + 19) (by decide) (Nat.le_refl _)⟩

end Sys2Proof.Machine

/-! ## The dispatch family (44_dispatch.md)

A step of the cycle that performs an operation ends as that operation asked for by itself, followed by the rest
(`finishRun_executeE1`, `finishRun_executeE4`, `finish_executeE5`): the two differ in their labels alone, and the step
after goes to a label of its own. -/

namespace Sys2Proof.Machine

theorem decode_executeRequest {n : Byte} {data : List Byte} (h : data.length = n.toNat)
    (opcode param1 lo hi expected : Byte) :
    decode (0x50 :: opcode :: param1 :: lo :: hi :: expected :: n :: data) =
      .ok (.execute opcode param1 (fromLe16 lo hi) expected data) := if_pos h

/-! `onOk`, and the sub-operations of a cycle as operations. -/

theorem onOk_ok {s t : State} (h : t.responses = s.responses) (v : List Byte)
    (f : List Byte → State → Host.Outcome State Fault Refusal) :
    onOk s (.next (t.respond (.ok v))) f = f v (t.goto .ready) := by
  rw [onOk, State.respond_responses, List.getLast?_concat, ← h]
  rfl

theorem onOk_error (s t : State) (e : Error) (f : List Byte → State → Host.Outcome State Fault Refusal) :
    onOk s (.next (t.respond (.error e))) f = .next (t.respond (.error e)) := by
  rw [onOk, State.respond_responses, List.getLast?_concat]

/-- The rest of an operation matters only after an Ok, and begins in a state with the responses of `s`. -/
theorem onOk_congr {s : State} {o : Host.Outcome State Fault Refusal}
    {f g : List Byte → State → Host.Outcome State Fault Refusal}
    (h : ∀ v t, o = .next t → t.responses.getLast? = some (.ok v) →
      f v { t with responses := s.responses } = g v { t with responses := s.responses }) :
    onOk s o f = onOk s o g := by
  cases o with
  | next t =>
    cases hv : t.responses.getLast? with
    | none => rw [onOk, onOk, hv]
    | some r =>
      cases r with
      | ok v =>
        rw [onOk, onOk, hv]
        exact h v t rfl hv
      | error e => rw [onOk, onOk, hv]
  | fault e => rfl
  | refused e => rfl

section
variable {s : State}

/-- A sub-operation without a value, and the steps `f` after it, which do not look at the label it leaves. -/
theorem finishRun_thenRun_eq_onOk {r r' : Ran Unit} (h : r.atReady = r'.atReady)
    (hr : r.state.responses = s.responses) {f : State → Run (List Byte)} (hf : ∀ t q, f (t.goto q) = f t) :
    finishRun (r.thenRun fun _ t => f t) = onOk s (finish (returnUnit r')) fun _ t => finishRun (f t) := by
  obtain ⟨q, rfl⟩ := Ran.eq_goto_of_atReady_eq h
  rcases r.cases with ⟨_, t, rfl⟩ | ⟨e, t, rfl⟩
  · exact (congrArg finishRun (hf t .ready)).symm.trans
      (onOk_ok (t := t.goto q) hr [] fun _ t => finishRun (f t)).symm
  · exact (onOk_error s (t.goto q) e _).symm

/-- A sub-operation with a value, and the steps `f` after it, which do not look at the label it leaves. -/
theorem finishRun_andThen_eq_onOk {r r' : Run (List Byte)} (h : Run.atReady r = Run.atReady r')
    (hr : ∀ x, r = .ok x → x.state.responses = s.responses) {f : List Byte → State → Ran (List Byte)}
    (hf : ∀ v t q, f v (t.goto q) = f v t) :
    finishRun (Run.andThen r f) = onOk s (finishRun r') fun v t => finish (f v t) := by
  rw [← finishRun_atReady r', ← h, finishRun_atReady]
  cases r with
  | error e => rfl
  | ok x =>
    rcases x.cases with ⟨v, t, rfl⟩ | ⟨e, t, rfl⟩
    · exact (congrArg finish (hf v t .ready)).symm.trans
        (onOk_ok (hr _ rfl) v fun v t => finish (f v t)).symm
    · exact (onOk_error s t e _).symm

end

theorem Ran.finish_andThen {α : Type} (r : Ran α) (f : α → State → Ran (List Byte)) :
    finish (r.andThen f) = finishRun (r.thenRun fun a t => .ok (f a t)) := by
  rcases r.cases with ⟨a, t, rfl⟩ | ⟨e, t, rfl⟩ <;> rfl

/-! The steps of a cycle (R201). -/

theorem finishRun_executeE1 (c : Command) (s : State) :
    finishRun (executeE1 c s) = onOk s (exec .wake s) fun _ t => finishRun (executeE2 c t) :=
  finishRun_thenRun_eq_onOk (wakeW1_atReady (.execute c) .host s) (wakeW1_steps (.execute c) s).responses
    fun _ _ => rfl

/-- The state in which step E2 sends the frame. -/
def frameLoaded (c : Command) (s : State) : State :=
  (s.loadTx (commandFrame c)).withAcc (trailer (commandFrame c) (commandFrame c).length)

/-- The state after the frame write of step E2, which the transport has answered with `r`. -/
def frameWritten (c : Command) (r : WriteResult) (s : State) : State :=
  (frameLoaded c s).dropReply.emit (.wr s.params.devAddr (commandFrame c) r)

theorem executeE2_eq (c : Command) (s : State) :
    executeE2 c s = (send s.params.devAddr (commandFrame c) ((frameLoaded c s).goto (.e2 c))).thenRun
      fun _ t => executeE3 c t := rfl

theorem finishRun_executeE2_writeFails {s : State} (h : s.nextReply = .err) (c : Command) :
    finishRun (executeE2 c s) =
      .next (((frameWritten c .err s).withPst .unknown).respond (.error .transportError)) := by
  have hq : ((frameLoaded c s).goto (.e2 c)).nextReply = .err := h
  rw [executeE2_eq, send_err (congrArg writeResultOf hq), State.afterWrite_of_reply hq]
  rfl

/-- Steps E2 and E3 with the frame written: step E4 begins. -/
theorem executeE2_written {s : State} {B : List Byte} (h : s.nextReply = .ok B) (c : Command) :
    executeE2 c s = executeE4 c ((frameWritten c .ok s).delay (execDelayOf s.params c.opcode)) := by
  have hq : ((frameLoaded c s).goto (.e2 c)).nextReply = .ok B := h
  rw [executeE2_eq, send_ok (congrArg writeResultOf hq), State.afterWrite_of_reply hq]
  rfl

/-- Step E4, of a cycle begun with the responses of `s`. -/
theorem finishRun_executeE4 {s t : State} (h : t.responses = s.responses) (c : Command) :
    finishRun (executeE4 c t) = onOk s (exec (.receive c.expected) t) fun R u => finish (executeE5 c R u) :=
  finishRun_andThen_eq_onOk (receiveV2_atReady (.execute c) .host (t.startReceive c.expected))
    (fun r hr => (receiveV1_steps (.execute c) c.expected t r hr).responses.trans h) fun _ _ _ => rfl

/-- The response a cycle has received is kept in the labels of its IDLE and does nothing there. -/
theorem idleI1_execute_atReady (c : Command) (R : List Byte) (s : State) :
    (idleI1 (.execute c) R s).atReady = (idleI1 .host [] s).atReady :=
  Ran.andThen_atReady_congr (send_atReady _ _ s _ _) fun _ _ _ => rfl

/-- Step E5, of a cycle begun with the responses of `s`. -/
theorem finish_executeE5 {s t : State} (h : t.responses = s.responses) (c : Command) (R : List Byte) :
    finish (executeE5 c R t) = onOk s (exec .idle t) fun _ u => finish (executeE6 c R u) := by
  rw [executeE5, afterIdle, Ran.finish_andThen]
  exact finishRun_thenRun_eq_onOk (r := idleI1 (.execute c) R (t.goto (.e5 c R)))
    (f := fun u => .ok (executeE6 c R u)) (idleI1_execute_atReady c R t)
    ((idleI1_steps (.execute c) R t).responses.trans h) fun _ _ => rfl

/-- With all bytes received, step E6 is DECODE of them. -/
theorem finish_executeE6 {c : Command} (hc : c.origin = .request) (hL : expectedFits c.expected) {R : List Byte}
    (hR : R.length = c.expected.toNat) (s : State) :
    finish (executeE6 c R s) = exec (.decode c.expected R) s := by
  have hfinal : returnPayload c = Ran.done := by
    funext payload t
    rw [returnPayload, hc]
  rw [exec_decode_checkFrame hL hR, executeE6, hfinal, checkFrame_eq, checkFrame_eq]
  split <;> rfl

/-! What the operations of a cycle leave. -/

theorem returnUnit_state (r : Ran Unit) : (returnUnit r).state = r.state := by
  rcases r.cases with ⟨_, t, rfl⟩ | ⟨e, t, rfl⟩ <;> rfl

theorem exec_wake_params {s t : State} (h : exec .wake s = .next t) : t.params = s.params := by
  rw [exec_wake, finish_next, returnUnit_state] at h
  cases h
  exact (wakeW1_steps .host s).params

theorem length_of_exec_receive_ok {total : Byte} {s t : State} {R : List Byte}
    (h : exec (.receive total) s = .next t) (hR : t.responses.getLast? = some (.ok R)) :
    R.length = total.toNat := by
  obtain ⟨-, g, t', -, h', -, -, -, -, -, herr, hok, -⟩ := receiveRefinesGather total s
  cases h.symm.trans h'
  cases hg : g.exhausted with
  | true =>
    obtain ⟨-, hresp, -⟩ := herr hg
    rw [hresp, List.getLast?_concat] at hR
    cases hR
  | false =>
    obtain ⟨-, ⟨hresp, -⟩, -, hlen⟩ := hok hg
    rw [hresp, List.getLast?_concat] at hR
    cases hR
    exact hlen

/-! The cycle after its wake. -/

/-- The operations that follow the WAKE of `cycleOf`, in the state it leaves. -/
def cycleAfterWake (c : Command) (s : State) : Host.Outcome State Fault Refusal :=
  match s.nextReply with
  | .err => .next (((frameWritten c .err s).withPst .unknown).respond (.error .transportError))
  | .ok _ =>
    onOk s (exec (.receive c.expected) ((frameWritten c .ok s).delay (execDelayOf s.params c.opcode)))
      fun R t => onOk s (exec .idle t) fun _ u => exec (.decode c.expected R) u

/-- `cycleOf` looks the parameters up in the state before its WAKE, which keeps them. -/
theorem cycleOf_eq (opcode param1 : Byte) (param2 : Half) (expected : Byte) (data : List Byte) (s : State) :
    cycleOf opcode param1 param2 expected data s = onOk s (exec .wake s) fun _ t =>
      cycleAfterWake ⟨opcode, param1, param2, data, expected, .request⟩ t := by
  refine onOk_congr fun _ t ht _ => ?_
  rw [← exec_wake_params ht]
  rfl

/-- Steps E2 to E6. E6 has no length test, but a receive that ends Ok has given all the bytes that were asked for. -/
theorem finishRun_executeE2 {c : Command} (hc : c.origin = .request) (hL : expectedFits c.expected) (s : State) :
    finishRun (executeE2 c s) = cycleAfterWake c s := by
  cases h : s.nextReply with
  | err => rw [finishRun_executeE2_writeFails h, cycleAfterWake, h]
  | ok B =>
    rw [executeE2_written h, cycleAfterWake, h]
    refine (finishRun_executeE4 (by rfl) c).trans (onOk_congr fun R t ht hR => ?_)
    refine (finish_executeE5 (by rfl) c R).trans (onOk_congr fun _ _ _ _ => ?_)
    exact finish_executeE6 hc hL (length_of_exec_receive_ok ht hR) _

theorem exec_execute (opcode param1 : Byte) (param2 : Half) (expected : Byte) (data : List Byte) (s : State) :
    exec (.execute opcode param1 param2 expected data) s =
      finishRun (executeE0 ⟨opcode, param1, param2, data, expected, .request⟩ s) := rfl

/-- Settles O38: past the test of E0 the cycle begins with the operation WAKE (`finishRun_executeE1`), and what it goes
on to is what `cycleOf` goes on to (`finishRun_executeE2`). -/
theorem executeIsItsSteps : Obligations.ExecuteIsItsSteps := by
  refine ⟨fun opcode param1 lo hi expected _ _ h => decode_executeRequest h opcode param1 lo hi expected,
    fun opcode param1 expected param2 data s => ?_⟩
  split_ifs with hguard
  · have hrefuse : ¬ dataFits s.params data ∨ ¬ expectedFits expected :=
      hguard.imp Nat.not_le.mpr Nat.not_le.mpr
    exact congrArg finishRun (executeE0_refused hrefuse)
  · have haccept : ¬ (¬ dataFits s.params data ∨ ¬ expectedFits expected) :=
      mt (Or.imp Nat.not_le.mp Nat.not_le.mp) hguard
    have hL : expectedFits expected := Nat.not_lt.mp (not_or.mp hguard).2
    rw [exec_execute, executeE0_accepted (by exact haccept), finishRun_executeE1, cycleOf_eq]
    exact onOk_congr fun _ _ _ _ => finishRun_executeE2 rfl hL _

end Sys2Proof.Machine

/-! ## The zone family: the lengths it refuses -/

namespace Sys2Proof.Machine

/-- Step Z1 of a length it does not accept (45_zone.md R222): it raises before any label is set. -/
theorem zoneReadZ1_refused {length : Byte} (h : ¬ readLengthOk length) (zone : Byte) (address : Half) (s : State) :
    zoneReadZ1 zone address length s = .ok (.raise .invalidArgument s) := if_pos h

/-- Settles O45: 4 and 32 are the two lengths of `readLengthOk`, and any other is refused in the state as it was
(`zoneReadZ1_refused`), which gets the response alone. -/
theorem zoneReadRefusesOtherLengths : Obligations.ZoneReadRefusesOtherLengths := by
  intro zone length address s h4 h32
  have hrefuse : ¬ readLengthOk length := not_or.mpr ⟨h4, h32⟩
  exact congrArg finishRun (zoneReadZ1_refused hrefuse zone address s)

end Sys2Proof.Machine

/-! ## The encoding (30_encoding.md)

The twelve request formats, with the operand bytes put in: `decode` reads each packet back. A packet's length byte
gives the length of what it counts (`length_eq_toNat_lengthByte`), and its two-byte operands are `le16` values. On the
wire a frame and a response end in the two bytes of their checksum (`append_le16_split`). -/

namespace Sys2Proof

open Sys2Proof.Machine

theorem length_eq_toNat_lengthByte {B : List Byte} (h : B.length ≤ 255) : B.length = (lengthByte B).toNat := by
  rw [lengthByte, BitVec.toNat_ofNat, Nat.mod_eq_of_lt (by omega)]

theorem decode_zoneRead (zone lo hi length : Byte) :
    decode [0x60, zone, lo, hi, length] = .ok (.zoneRead zone (fromLe16 lo hi) length) := rfl

theorem decode_zoneWrite {length : Byte} {buffer : List Byte} (h : buffer.length = length.toNat) (zone lo hi : Byte) :
    decode (0x61 :: zone :: lo :: hi :: length :: buffer) =
      .ok (.zoneWrite zone (fromLe16 lo hi) length buffer) := if_pos h

/-! The wire patterns (R88, R90, R91). -/

/-- Where a sequence with a checksum behind it is cut. -/
theorem append_le16_split (B : List Byte) (v : Half) :
    (B ++ le16 v).length - 2 = B.length ∧ (B ++ le16 v).take B.length = B ∧
      (B ++ le16 v).drop B.length = le16 v := by
  simp [le16]

theorem trailer_append_le16 (B : List Byte) (v : Half) : trailer (B ++ le16 v) (B.length + 2) = v := by
  have h := trailer_append_pair B (lo8 v) (hi8 v)
  rw [List.length_append] at h
  exact h.trans (fromLe16_le16 v)

theorem decodeFrameBody_of_frame {data : List Byte} (h : data.length ≤ 248) (opcode param1 : Byte) (param2 : Half) :
    decodeFrameBody (frameBody opcode param1 param2 data ++ le16 (crc16 (frameBody opcode param1 param2 data))) =
      .ok (.wireCommandFrame opcode param1 param2 data) := by
  obtain ⟨hlen, htake, hdrop⟩ := append_le16_split data (crc16 (frameBody opcode param1 param2 data))
  have hcount : (BitVec.ofNat 8 (cmdOverhead + data.length)).toNat = cmdOverhead + data.length := by
    rw [BitVec.toNat_ofNat, cmdOverhead, Nat.mod_eq_of_lt (by omega)]
  have hpos : 2 ≤ (data ++ le16 (crc16 (frameBody opcode param1 param2 data))).length := by simp [le16]
  show decodeFrameBody (_ :: opcode :: param1 :: lo8 param2 :: hi8 param2 ::
    (data ++ le16 (crc16 (frameBody opcode param1 param2 data)))) = _
  rw [decodeFrameBody]
  simp only [hlen, htake, hdrop, fromLe16_le16]
  exact if_pos ⟨hpos, hcount, rfl⟩

theorem decodeDeviceWrite_encodeFrame (p : Params) {data : List Byte} (h : data.length ≤ 248) (opcode param1 : Byte)
    (param2 : Half) :
    decodeDeviceWrite p (encodeFrame opcode param1 param2 data) = .ok (.wireCommandFrame opcode param1 param2 data) :=
  decodeFrameBody_of_frame h opcode param1 param2

/-- Count byte and payload are all of a response but its checksum. -/
theorem length_countedPayload (count : Byte) (payload : List Byte) :
    (count :: payload).length + 2 = rspOverhead + payload.length := by
  rw [List.length_cons, rspOverhead]
  omega

theorem decodeDeviceRead_responseFrame (count : Byte) (payload : List Byte) (checksum : Half) :
    decodeDeviceRead (rspOverhead + payload.length) (count :: (payload ++ le16 checksum)) =
      .ok (.wireResponseFrame count payload checksum) := by
  obtain ⟨hlen, htake, -⟩ := append_le16_split payload checksum
  have htotal : (count :: (payload ++ le16 checksum)).length = rspOverhead + payload.length :=
    (List.length_append (as := count :: payload) (bs := le16 checksum)).trans (length_countedPayload count payload)
  have htrailer : trailer (count :: (payload ++ le16 checksum)) (rspOverhead + payload.length) = checksum :=
    length_countedPayload count payload ▸ trailer_append_le16 (count :: payload) checksum
  have hpos : 2 ≤ (payload ++ le16 checksum).length := by simp [le16]
  rw [decodeDeviceRead, if_neg (not_not_intro htotal)]
  simp only [if_pos hpos, hlen, htake, htrailer]

/-- Settles O10: of a host request the length byte counts what follows it and `le16` reads back; of a wire pattern the
bytes are told apart by their address, their length and their values. -/
theorem decodeOfEncodeIsIdentity : Obligations.DecodeOfEncodeIsIdentity := by
  intro p i hmode hwf
  cases i with
  | crcBegin => rfl
  | crcUpdate bytes => exact decode_crcUpdate (length_eq_toNat_lengthByte hwf)
  | crcEnd => rfl
  | wake => rfl
  | idle => rfl
  | sleep => rfl
  | encode opcode param1 param2 data =>
    exact (decode_encodeRequest (length_eq_toNat_lengthByte hwf) opcode param1 _ _).trans (by rw [fromLe16_le16])
  | decode expected raw => exact decode_decodeRequest (length_eq_toNat_lengthByte hwf) expected
  | receive total => rfl
  | execute opcode param1 param2 expected data =>
    exact (decode_executeRequest (length_eq_toNat_lengthByte hwf) opcode param1 _ _ expected).trans
      (by rw [fromLe16_le16])
  | zoneRead zone address length => exact (decode_zoneRead zone _ _ length).trans (by rw [fromLe16_le16])
  | zoneWrite zone address length buffer => exact (decode_zoneWrite hwf zone _ _).trans (by rw [fromLe16_le16])
  | wireCommandFrame opcode param1 param2 data => exact decodeDeviceWrite_encodeFrame p hwf opcode param1 param2
  | wireWakePulse => rfl
  | wireIdleByte => exact if_pos rfl
  | wireSleepByte => exact (if_neg hmode.symm).trans (if_pos rfl)
  | wireResponseFrame count payload checksum => exact decodeDeviceRead_responseFrame count payload checksum

/-- Settles O11: `isPacketOf_of_decode`. -/
theorem encodeOfDecodeIsIdentity : Obligations.EncodeOfDecodeIsIdentity :=
  fun p _ _ h => isPacketOf_of_decode p h

/-- Settles O9: the formats of R81 to R87 and the wake pulse of R90, each evaluated. -/
theorem wordsDecodeAsWritten : Obligations.WordsDecodeAsWritten := by
  refine ⟨decode_crcBegin, decode_crcUpdate rfl, decode_idle, decode_encodeRequest rfl _ _ _ _,
    decode_decodeRequest rfl _, decode_receive _, decode_executeRequest rfl _ _ _ _ _,
    decode_zoneRead _ _ _ _, decode_zoneWrite rfl _ _ _, rfl⟩

/-! The converse of `length_of_decode`, a format at a time: too few operand bytes leave the length short of the one the
format gives, and with enough of them that length says what the length byte must be. -/

section
variable {operands : List Byte}

theorem decode_H1_of_length (h : (0x11 :: operands).length = requestLength (0x11 :: operands)) :
    ∃ i, decode (0x11 :: operands) = .ok i := by
  rcases operands with _ | ⟨n, bytes⟩ <;> simp [requestLength] at h
  exact ⟨_, decode_crcUpdate (by omega)⟩

theorem decode_HE_of_length (h : (0x30 :: operands).length = requestLength (0x30 :: operands)) :
    ∃ i, decode (0x30 :: operands) = .ok i := by
  rcases operands with _ | ⟨opcode, _ | ⟨param1, _ | ⟨lo, _ | ⟨hi, _ | ⟨n, data⟩⟩⟩⟩⟩ <;> simp [requestLength] at h
  exact ⟨_, decode_encodeRequest (by omega) opcode param1 lo hi⟩

theorem decode_HD_of_length (h : (0x31 :: operands).length = requestLength (0x31 :: operands)) :
    ∃ i, decode (0x31 :: operands) = .ok i := by
  rcases operands with _ | ⟨expected, _ | ⟨n, raw⟩⟩ <;> simp [requestLength] at h
  exact ⟨_, decode_decodeRequest (by omega) expected⟩

theorem decode_HX_of_length (h : (0x50 :: operands).length = requestLength (0x50 :: operands)) :
    ∃ i, decode (0x50 :: operands) = .ok i := by
  rcases operands with _ | ⟨opcode, _ | ⟨param1, _ | ⟨lo, _ | ⟨hi, _ | ⟨expected, _ | ⟨n, data⟩⟩⟩⟩⟩⟩ <;>
    simp [requestLength] at h
  exact ⟨_, decode_executeRequest (by omega) opcode param1 lo hi expected⟩

theorem decode_HW_of_length (h : (0x61 :: operands).length = requestLength (0x61 :: operands)) :
    ∃ i, decode (0x61 :: operands) = .ok i := by
  rcases operands with _ | ⟨zone, _ | ⟨lo, _ | ⟨hi, _ | ⟨length, buffer⟩⟩⟩⟩ <;> simp [requestLength] at h
  exact ⟨_, decode_zoneWrite (by omega) zone lo hi⟩

/-- A request with one of the twelve selectors and the length of its format is taken. -/
theorem decode_of_length {sel : Byte}
    (hsel : sel ∈ ([0x10, 0x11, 0x12, 0x20, 0x21, 0x22, 0x30, 0x31, 0x40, 0x50, 0x60, 0x61] : List Byte))
    (h : (sel :: operands).length = requestLength (sel :: operands)) : ∃ i, decode (sel :: operands) = .ok i := by
  have hbare (k : Nat) (hk : (sel :: operands).length = k + 1) : operands.length = k := Nat.succ_inj.mp hk
  simp only [List.mem_cons, List.not_mem_nil, or_false] at hsel
  rcases hsel with rfl | rfl | rfl | rfl | rfl | rfl | rfl | rfl | rfl | rfl | rfl | rfl
  · obtain rfl := List.eq_nil_of_length_eq_zero (hbare 0 h)
    exact ⟨_, decode_crcBegin⟩
  · exact decode_H1_of_length h
  · obtain rfl := List.eq_nil_of_length_eq_zero (hbare 0 h)
    exact ⟨_, decode_crcEnd⟩
  · obtain rfl := List.eq_nil_of_length_eq_zero (hbare 0 h)
    exact ⟨_, decode_wake⟩
  · obtain rfl := List.eq_nil_of_length_eq_zero (hbare 0 h)
    exact ⟨_, decode_idle⟩
  · obtain rfl := List.eq_nil_of_length_eq_zero (hbare 0 h)
    exact ⟨_, decode_sleep⟩
  · exact decode_HE_of_length h
  · exact decode_HD_of_length h
  · obtain ⟨total, rfl⟩ := List.length_eq_one_iff.mp (hbare 1 h)
    exact ⟨_, decode_receive total⟩
  · exact decode_HX_of_length h
  · obtain ⟨zone, lo, hi, length, rfl⟩ := List.length_eq_four.mp (hbare 4 h)
    exact ⟨_, decode_zoneRead zone lo hi length⟩
  · exact decode_HW_of_length h

end

/-- Settles O5: what decodes has the length of its packet (`length_of_decode`) and no reserved selector, and a request
with such a selector and that length has the operand bytes its format asks for (`decode_of_length`). -/
theorem requestIsTakenIffWellFormed : Obligations.RequestIsTakenIffWellFormed := by
  intro Q
  constructor
  · rintro ⟨i, h⟩
    refine ⟨?_, length_of_decode h⟩
    cases Q with
    | nil => cases h
    | cons sel operands =>
      refine ⟨sel, operands, rfl, ?_⟩
      by_contra hsel
      cases h.symm.trans (decode_reserved operands hsel)
  · rintro ⟨⟨sel, operands, rfl, hsel⟩, hlen⟩
    exact decode_of_length hsel hlen

end Sys2Proof

/-! ## The invariant and the step (10_state.md R23, 20_memory.md R66, 70_reset_and_hazards.md R293)

`State.Sound` is the part of the invariant that does not speak of `SEQ`. Every update of a step keeps it, so every
step function does, and a receive whose bytes below `CUR` are written never meets the fault (`Run.KeepsSound`). A busy
block goes on with `Seq.rest` (`step_busy`), a READY one takes a request (`step_request`); `step_inv` puts the two
together. -/

namespace Sys2Proof.Machine

variable {α β : Type}

/-- What the invariant says of the buffers and the counters, whatever `SEQ` holds. -/
structure State.Sound (s : State) : Prop where
  txWf : s.txbuf.wf
  txBelow : s.txbuf.below (txMax s.params)
  rxWf : s.rxbuf.wf
  rxBelow : s.rxbuf.below rxMax
  retryLe : s.retry.toNat ≤ 20
  curLe : s.cur.toNat ≤ s.total.toNat
  txlenLe : s.txlen.toNat ≤ txMax s.params

theorem State.Inv.sound {s : State} (h : s.Inv) : s.Sound := { h with }

/-- Of a READY block the invariant says no more. -/
theorem State.Sound.inv {s : State} (h : s.Sound) (hs : s.seq = .ready) : s.Inv :=
  { h with
    seqFits := by rw [hs]; trivial
    receiving := by rw [State.receiving, hs]; trivial }

/-! The updates of a step. -/

namespace State.Sound

variable {s : State} (h : s.Sound)
include h

theorem goto (q : Seq) : (s.goto q).Sound := { h with }
theorem withAcc (v : Half) : (s.withAcc v).Sound := { h with }
theorem withPst (v : PowerState) : (s.withPst v).Sound := { h with }
theorem afterWrite (d : BusAddr) (B : List Byte) : (s.afterWrite d B).Sound := { h with }
theorem afterRead (d : BusAddr) (n : Nat) : (s.afterRead d n).Sound := { h with }
theorem delay (t : Duration) : (s.delay t).Sound := { h with }
theorem respond (r : Response) : (s.respond r).Sound := { h with }

theorem startReceive (n : Byte) : (s.startReceive n).Sound :=
  { h with
    retryLe := Nat.zero_le _
    curLe := Nat.zero_le _ }

theorem forgetRx : s.forgetRx.Sound :=
  { h with
    rxWf := Memory.wf_nil
    rxBelow := by rintro x ⟨⟩ }

theorem loadTx {data : List Byte} (hd : dataFits s.params data) (opcode param1 : Byte) (param2 : Half) :
    (s.loadTx (encodeFrame opcode param1 param2 data)).Sound := by
  have hlen : (encodeFrame opcode param1 param2 data).length ≤ txMax s.params := by
    rw [length_encodeFrame, txMax]
    exact Nat.add_le_add_left hd 8
  exact { h with
    txWf := Memory.wf_writeAll h.txWf 0 _
    txBelow := Memory.below_writeAll h.txBelow 0 _ (by rwa [Nat.zero_add])
    txlenLe := (toNat_ofNat_length_encodeFrame hd opcode param1 param2).trans_le hlen }

theorem storeRx {a : Nat} {C : List Byte} (hC : a + C.length ≤ rxMax) : (s.storeRx a C).Sound :=
  { h with
    rxWf := Memory.wf_writeAll h.rxWf a C
    rxBelow := Memory.below_writeAll h.rxBelow a C hC }

theorem countFailure (hr : s.retry.toNat < 20) : s.countFailure.Sound :=
  { h with
    retryLe := by
      have hwidth : s.retry.toNat + 1 < 2 ^ 5 := by omega
      rw [State.countFailure_retry, BitVec.toNat_add]
      exact (Nat.mod_eq_of_lt hwidth).trans_le hr }

theorem store {C : List Byte} (hC : goodChunk s C) : ((s.storeRx s.cur.toNat C).advance C.length).Sound := by
  obtain ⟨hcur, hle⟩ := cur_advance hC
  exact { h.storeRx (hle.trans (Nat.le_of_lt_succ s.total.isLt)) with curLe := hcur.trans_le hle }

end State.Sound

/-! Going on after a sub-operation. -/

/-- An operation that does not meet the fault and leaves a state for which `P` holds. -/
def Run.Leaves (r : Run α) (P : State → Prop) : Prop := ∃ x, r = .ok x ∧ P x.state

section
variable {P : State → Prop}

theorem Ran.andThen_state {r : Ran α} {f : α → State → Ran β} (h : P r.state)
    (hf : ∀ a t, r = .done a t → P t → P (f a t).state) : P (r.andThen f).state := by
  rcases r.cases with ⟨a, t, rfl⟩ | ⟨e, t, rfl⟩
  · exact hf a t rfl h
  · exact h

theorem Ran.thenRun_leaves {r : Ran α} {f : α → State → Run β} (h : P r.state)
    (hf : ∀ a t, r = .done a t → P t → Run.Leaves (f a t) P) : Run.Leaves (r.thenRun f) P := by
  rcases r.cases with ⟨a, t, rfl⟩ | ⟨e, t, rfl⟩
  · exact hf a t rfl h
  · exact ⟨_, rfl, h⟩

/-- An operation begun in a sound state meets no fault and leaves a sound state. From any other state it meets none
either. -/
abbrev Run.KeepsSound (r : Run α) (s : State) : Prop := Run.Leaves r fun t => s.Sound → t.Sound

/-- The steps before it are taken first. -/
theorem Run.KeepsSound.after {r : Run α} {s t : State} (h : Run.KeepsSound r t) (ht : s.Sound → t.Sound) :
    Run.KeepsSound r s := by
  obtain ⟨x, hx, hsound⟩ := h
  exact ⟨x, hx, hsound ∘ ht⟩

theorem Run.andThen_leaves {r : Run α} {f : α → State → Ran β} (h : Run.Leaves r P)
    (hf : ∀ a t, P t → P (f a t).state) : Run.Leaves (Run.andThen r f) P := by
  obtain ⟨x, rfl, hx⟩ := h
  exact ⟨_, rfl, Ran.andThen_state hx fun a t _ => hf a t⟩

end

/-! The power operations. -/

/-- All that WAKE can do from step W3 on. -/
theorem wakeW3_cases (p : Parent) (s : State) :
    (∃ e, wakeW3 p s = .lose e ((s.goto (.w3 p)).afterRead s.params.devAddr wakeRspLen)) ∨
    ∃ c0 c1 c2 c3, wakeW3 p s =
      wakeW4 p c0 c1 (((s.goto (.w3 p)).afterRead s.params.devAddr wakeRspLen).storeRx 0 [c0, c1, c2, c3]) := by
  unfold wakeW3
  split
  · exact .inl ⟨_, rfl⟩
  next c0 c1 c2 c3 _ => exact .inr ⟨c0, c1, c2, c3, rfl⟩
  · exact .inl ⟨_, rfl⟩

theorem wakeW4_steps (p : Parent) (c0 c1 : Byte) (s : State) : Steps s (wakeW4 p c0 c1 s).state := by
  rw [wakeW4_eq]
  split
  · exact (((Steps.goto _ _).trans (.withAcc _ _)).trans (.goto _ _)).trans (.withPst _ _)
  · exact ((Steps.goto _ _).trans (.withAcc _ _)).trans (.withPst _ _)

theorem wakeW3_steps (p : Parent) (s : State) : Steps s (wakeW3 p s).state := by
  have hread : Steps s ((s.goto (.w3 p)).afterRead s.params.devAddr wakeRspLen) :=
    (Steps.goto s _).trans (.afterRead (by decide) (by decide))
  rcases wakeW3_cases p s with ⟨e, he⟩ | ⟨c0, c1, c2, c3, he⟩ <;> rw [he]
  · exact hread.trans (.withPst _ _)
  · exact (hread.trans (.storeRx _ _ _)).trans (wakeW4_steps p c0 c1 _)

theorem wakeW2_steps (p : Parent) (s : State) : Steps s (wakeW2 p s).state :=
  ((Steps.goto s _).trans (.delay (.inl rfl))).trans (wakeW3_steps p _)

section
variable {s : State} (h : s.Sound)
include h

theorem send_sound (d : BusAddr) (B : List Byte) : (send d B s).state.Sound := by
  rcases send_cases d B s with ⟨-, e⟩ | ⟨-, e⟩ <;> rw [e]
  · exact h.afterWrite d B
  · exact (h.afterWrite d B).withPst _

theorem wakeW4_sound (p : Parent) (c0 c1 : Byte) : (wakeW4 p c0 c1 s).state.Sound := by
  rw [wakeW4_eq]
  split
  · exact (((h.goto _).withAcc _).goto _).withPst _
  · exact ((h.goto _).withAcc _).withPst _

theorem wakeW3_sound (p : Parent) : (wakeW3 p s).state.Sound := by
  have hread := (h.goto (.w3 p)).afterRead s.params.devAddr wakeRspLen
  rcases wakeW3_cases p s with ⟨e, he⟩ | ⟨c0, c1, c2, c3, he⟩ <;> rw [he]
  · exact hread.withPst _
  · exact wakeW4_sound (hread.storeRx (show 0 + 4 ≤ rxMax by decide)) p c0 c1

theorem wakeW2_sound (p : Parent) : (wakeW2 p s).state.Sound := wakeW3_sound ((h.goto _).delay _) p

theorem wakeW1_sound (p : Parent) : (wakeW1 p s).state.Sound :=
  Ran.andThen_state (send_sound (h.goto _) _ _) fun _ _ _ ht => wakeW2_sound ht p

theorem idleI1_sound (p : Parent) (received : List Byte) : (idleI1 p received s).state.Sound :=
  Ran.andThen_state (send_sound (h.goto _) _ _) fun _ _ _ ht => (ht.goto _).withPst _

theorem sleepS1_sound : (sleepS1 s).state.Sound :=
  Ran.andThen_state (send_sound (h.goto _) _ _) fun _ _ _ ht => (ht.goto _).withPst _

/-! The end of a command cycle. -/

theorem checkFrame_sound (L : Nat) (raw : List Byte) : (checkFrame L raw s).state.Sound := by
  rw [checkFrame_eq]
  split <;> exact h.withAcc _

theorem executeE6_sound (c : Command) (received : List Byte) : (executeE6 c received s).state.Sound := by
  refine Ran.andThen_state (checkFrame_sound (h.goto _) _ received) fun payload t _ ht => ?_
  unfold returnPayload
  split
  · exact ht
  · exact ht.goto _

theorem executeE5_sound (c : Command) (received : List Byte) : (executeE5 c received s).state.Sound :=
  Ran.andThen_state (idleI1_sound (h.goto _) _ received) fun _ _ _ ht => executeE6_sound ht c received

end

/-! The receive. A pass keeps three things: `State.Sound`, fewer than 20 failed reads, and the bytes below `CUR`. -/

/-- A pass that goes on has counted fewer than 20 failed reads. -/
theorem retry_lt_of_ne_max {r : BitVec 5} (h : r.toNat < 20) (hne : r + 1 ≠ retryMax) : (r + 1).toNat < 20 := by
  revert r
  decide

theorem rxFilled_store {s : State} (h : s.rxFilled) {C : List Byte} (hC : goodChunk s C) :
    ((s.storeRx s.cur.toNat C).advance C.length).rxFilled := by
  intro a ha
  have hcur : a < s.cur.toNat + C.length := (cur_advance hC).1 ▸ ha
  rw [State.advance_rxbuf, State.storeRx_rxbuf, Memory.read_writeAll]
  split
  · rw [List.getElem?_eq_getElem (by omega)]
    rfl
  · exact h a (by omega)

theorem receiveV3_sound {s : State} (h : s.Sound) (hr : s.retry.toNat < 20) (p : Parent) (r : BusReply) :
    (receiveV3 p r s).state.Sound := by
  have hs := h.goto (.v3 p r)
  rcases receiveV3_cases p r s with ⟨C, -, hC, e⟩ | ⟨-, -, e⟩ | ⟨-, -, e⟩ <;> rw [e]
  · exact hs.store hC
  · exact hs.countFailure hr
  · exact ((hs.countFailure hr).forgetRx).withPst _

/-- A pass that goes on is followed by another that finds what this one found. -/
theorem receiveV3_ready {s t : State} {p : Parent} {r : BusReply} (hr : s.retry.toNat < 20) (hf : s.rxFilled)
    (h : receiveV3 p r s = .done () t) : t.retry.toNat < 20 ∧ t.rxFilled := by
  rcases receiveV3_cases p r s with ⟨C, -, hC, e⟩ | ⟨-, hne, e⟩ | ⟨-, -, e⟩
  · cases e.symm.trans h
    exact ⟨hr, rxFilled_store hf hC⟩
  · cases e.symm.trans h
    exact ⟨retry_lt_of_ne_max hr hne, hf⟩
  · cases congrArg Ran.result (e.symm.trans h)

theorem receiveV4_keepsSound {s : State} (hc : ¬ s.cur < s.total) (hf : s.rxFilled) (p : Parent) :
    Run.KeepsSound (receiveV4 p s) s := by
  have hcur : s.total.toNat ≤ s.cur.toNat := Nat.not_lt.mp hc
  obtain ⟨bytes, hb, -⟩ := Memory.readAll_isSome s.rxbuf 0 s.total.toNat fun i hi => by
    rw [Nat.zero_add]
    exact hf i (hi.trans_le hcur)
  exact ⟨_, receiveV4_of_readAll hb p, fun h => h.goto _⟩

theorem receiveV2_keepsSound (p : Parent) (s : State) :
    s.retry.toNat < 20 → s.rxFilled → Run.KeepsSound (receiveV2 p s) s := by
  refine receive_induction (P := fun s => s.retry.toNat < 20 → s.rxFilled → Run.KeepsSound (receiveV2 p s) s) p
    (fun s hc _ hf => ?complete) (fun s hlt ih hr hf => ?pass) s
  case complete =>
    rw [receiveV2_complete hc]
    exact (receiveV4_keepsSound (s := s.goto (.v2 p)) hc hf p).after fun h => h.goto _
  case pass =>
    rw [receiveV2_eq, if_pos hlt]
    refine Ran.thenRun_leaves (fun h => receiveV3_sound ((h.goto _).afterRead _ _) hr p _) fun _ t ht hsound => ?_
    obtain ⟨hr', hf'⟩ := receiveV3_ready (by exact hr) (by exact hf) ht
    exact (ih t ht hr' hf').after hsound

/-- A receive begins with no failed read counted and no byte below `CUR`, so it meets no fault in any state. -/
theorem receiveV1_keepsSound (p : Parent) (total : Byte) (s : State) : Run.KeepsSound (receiveV1 p total s) s :=
  (receiveV2_keepsSound p ((s.goto (.v1 p total)).startReceive total) (Nat.zero_lt_succ _)
    fun a ha => absurd ha (Nat.not_lt_zero a)).after fun h => (h.goto _).startReceive _

/-! The command cycle. -/

/-- What follows a receive. -/
theorem afterReceive_keepsSound (p : Parent) {r : Run (List Byte)} {s : State} (h : Run.KeepsSound r s) :
    Run.KeepsSound (afterReceive p r) s := by
  cases p with
  | host => exact h
  | execute c => exact Run.andThen_leaves h fun received _ ht hs => executeE5_sound (ht hs) c received

theorem executeE4_keepsSound (c : Command) (s : State) : Run.KeepsSound (executeE4 c s) s :=
  (afterReceive_keepsSound (.execute c) (receiveV1_keepsSound _ c.expected (s.goto (.e4 c)))).after fun h => h.goto _

theorem executeE3_keepsSound (c : Command) (s : State) : Run.KeepsSound (executeE3 c s) s :=
  (executeE4_keepsSound c _).after fun h => (h.goto _).delay _

theorem executeE2_keepsSound {c : Command} {s : State} (hc : dataFits s.params c.data) :
    Run.KeepsSound (executeE2 c s) s := by
  rw [executeE2_eq]
  exact Ran.thenRun_leaves (fun h => send_sound (((h.loadTx hc _ _ _).withAcc _).goto _) _ _)
    fun _ t _ ht => (executeE3_keepsSound c t).after ht

/-- What follows a wake. -/
theorem afterWake_keepsSound {p : Parent} {r : Ran Unit} {s : State} (hp : p.fits s.params)
    (hr : Steps s r.state) (h : s.Sound → r.state.Sound) : Run.KeepsSound (afterWake p r) s := by
  cases p with
  | host => exact ⟨_, rfl, by rwa [returnUnit_state]⟩
  | execute c =>
    refine Ran.thenRun_leaves h fun _ t ht hsound => ?_
    subst ht
    have hc : dataFits t.params c.data := hr.params.symm ▸ hp.1
    exact (executeE2_keepsSound hc).after hsound

theorem executeE1_keepsSound {c : Command} {s : State} (hc : c.fits s.params) : Run.KeepsSound (executeE1 c s) s :=
  afterWake_keepsSound (p := .execute c) hc ((Steps.goto s _).trans (wakeW1_steps _ _))
    fun h => wakeW1_sound (h.goto _) _

theorem executeE0_keepsSound (c : Command) (s : State) : Run.KeepsSound (executeE0 c s) s := by
  by_cases hguard : ¬ dataFits s.params c.data ∨ ¬ expectedFits c.expected
  · rw [executeE0_refused hguard]
    exact ⟨_, rfl, id⟩
  · rw [executeE0_accepted hguard]
    have hc : c.fits s.params := by rwa [not_or, not_not, not_not] at hguard
    exact (executeE1_keepsSound (s := s.goto (.e0 c)) hc).after fun h => h.goto _

theorem zoneReadZ3_keepsSound (param1 : Byte) (address : Half) (length : Byte) (s : State) :
    Run.KeepsSound (zoneReadZ3 param1 address length s) s :=
  (executeE0_keepsSound _ (s.goto (.z3 param1 address length))).after fun h => h.goto _

theorem zoneReadZ2_keepsSound (zone : Byte) (address : Half) (length : Byte) (s : State) :
    Run.KeepsSound (zoneReadZ2 zone address length s) s :=
  (zoneReadZ3_keepsSound _ address length (s.goto (.z2 zone address length))).after fun h => h.goto _

theorem zoneReadZ1_accepted {length : Byte} (h : readLengthOk length) (zone : Byte) (address : Half) (s : State) :
    zoneReadZ1 zone address length s = zoneReadZ2 zone address length (s.goto (.z1 zone address length)) :=
  if_neg (not_not_intro h)

theorem zoneReadZ1_keepsSound (zone : Byte) (address : Half) (length : Byte) (s : State) :
    Run.KeepsSound (zoneReadZ1 zone address length s) s := by
  by_cases hlen : readLengthOk length
  · rw [zoneReadZ1_accepted hlen]
    exact (zoneReadZ2_keepsSound zone address length _).after fun h => h.goto _
  · rw [zoneReadZ1_refused hlen]
    exact ⟨_, rfl, id⟩

/-! The operations, begun by a READY block. -/

/-- Whatever the state, an operation comes to its end; on the way it does what `Steps` allows and keeps a sound state
sound. -/
theorem exec_operation {i : Instr} (h : isOperation i = true) (s : State) :
    ∃ x, exec i s = finish x ∧ Steps s x.state ∧ (s.Sound → x.state.Sound) := by
  cases i with
  | crcBegin => exact ⟨_, rfl, .withAcc s _, fun h => h.withAcc _⟩
  | crcUpdate bytes => exact ⟨_, rfl, .withAcc s _, fun h => h.withAcc _⟩
  | crcEnd => exact ⟨_, rfl, .refl s, id⟩
  | wake =>
    refine ⟨_, exec_wake s, ?_⟩
    rw [returnUnit_state]
    exact ⟨wakeW1_steps .host s, fun h => wakeW1_sound h .host⟩
  | idle =>
    refine ⟨_, rfl, ?_⟩
    rw [returnUnit_state]
    exact ⟨idleI1_steps .host [] s, fun h => idleI1_sound h .host []⟩
  | sleep =>
    refine ⟨_, rfl, ?_⟩
    rw [returnUnit_state]
    exact ⟨sleepS1_steps s, sleepS1_sound⟩
  | encode opcode param1 param2 data =>
    by_cases hd : dataFits s.params data
    · exact ⟨_, if_neg (not_not_intro hd), (Steps.loadTx s _).trans (.withAcc _ _),
        fun h => (h.loadTx hd opcode param1 param2).withAcc _⟩
    · exact ⟨_, if_pos hd, .refl s, id⟩
  | decode expected raw =>
    by_cases hL : expectedFits expected
    · by_cases hlen : raw.length = expected.toNat
      · exact ⟨_, exec_decode_checkFrame hL hlen s, checkFrame_steps _ raw s, fun h => checkFrame_sound h _ raw⟩
      · exact ⟨.raise _ s, exec_decode_wrongLength hL hlen s, .refl s, id⟩
    · exact ⟨.raise _ s, exec_decode_guard hL raw s, .refl s, id⟩
  | receive total =>
    obtain ⟨x, hx, hsound⟩ := receiveV1_keepsSound .host total s
    exact ⟨x, congrArg finishRun hx, receiveV1_steps _ total s x hx, hsound⟩
  | execute opcode param1 param2 expected data =>
    obtain ⟨x, hx, hsound⟩ := executeE0_keepsSound ⟨opcode, param1, param2, data, expected, .request⟩ s
    exact ⟨x, congrArg finishRun hx, executeE0_steps _ s x hx, hsound⟩
  | zoneRead zone address length =>
    obtain ⟨x, hx, hsound⟩ := zoneReadZ1_keepsSound zone address length s
    exact ⟨x, congrArg finishRun hx, zoneReadZ1_steps zone address length s x hx, hsound⟩
  | zoneWrite zone address length buffer => exact ⟨_, rfl, .refl s, id⟩
  | wireCommandFrame | wireWakePulse | wireIdleByte | wireSleepByte | wireResponseFrame => cases h

/-! The operation in progress of a busy block. -/

/-- What remains of the operation whose label `SEQ` holds. -/
def Seq.rest : Seq → State → Run (List Byte)
  | .ready, s => .ok (.done [] s)
  | .w1 p, s => afterWake p (wakeW1 p s)
  | .w2 p, s => afterWake p (wakeW2 p s)
  | .w3 p, s => afterWake p (wakeW3 p s)
  | .w4 p c0 c1, s => afterWake p (wakeW4 p c0 c1 s)
  | .w5 p, s => afterWake p (wakeW5 p s)
  | .i1 p received, s => .ok (returnIdle p received (idleI1 p received s))
  | .i2 p received, s => .ok (returnIdle p received (idleI2 p received s))
  | .s1, s => .ok (returnUnit (sleepS1 s))
  | .s2, s => .ok (returnUnit (sleepS2 s))
  | .v1 p total, s => afterReceive p (receiveV1 p total s)
  | .v2 p, s => afterReceive p (receiveV2 p s)
  | .v3 p r, s => afterReceive p ((receiveV3 p r s).thenRun fun _ t => receiveV2 p t)
  | .v4 p, s => afterReceive p (receiveV4 p s)
  | .e0 c, s => executeE0 c s
  | .e1 c, s => executeE1 c s
  | .e2 c, s => executeE2 c s
  | .e3 c, s => executeE3 c s
  | .e4 c, s => executeE4 c s
  | .e5 c received, s => .ok (executeE5 c received s)
  | .e6 c received, s => .ok (executeE6 c received s)
  | .z1 zone address length, s => zoneReadZ1 zone address length s
  | .z2 zone address length, s => zoneReadZ2 zone address length s
  | .z3 param1 address length, s => zoneReadZ3 param1 address length s
  | .z4 payload, s => .ok (.done payload s)

theorem step_busy {s : State} (h : s.seq ≠ .ready) : step s = finishRun (s.seq.rest s) := by
  rw [step, resume]
  cases hq : s.seq with
  | ready => exact absurd hq h
  | _ => rfl

section
variable {s : State}

theorem returnIdle_sound (p : Parent) (received : List Byte) {r : Ran Unit} (h : r.state.Sound) :
    (returnIdle p received r).state.Sound := by
  cases p with
  | host => rwa [returnIdle, returnUnit_state]
  | execute c => exact Ran.andThen_state h fun _ _ _ ht => executeE6_sound ht c received

/-- From every label of an invariant state the operation comes to its end. -/
theorem rest_keepsSound (h : s.Inv) {q : Seq} (hq : s.seq = q) : Run.KeepsSound (q.rest s) s := by
  have hfits : q.fits s.params := hq ▸ h.seqFits
  have hreceiving := h.receiving
  rw [State.receiving, hq] at hreceiving
  cases q with
  | ready => exact ⟨_, rfl, id⟩
  | w1 p => exact afterWake_keepsSound hfits (wakeW1_steps p s) fun h => wakeW1_sound h p
  | w2 p => exact afterWake_keepsSound hfits (wakeW2_steps p s) fun h => wakeW2_sound h p
  | w3 p => exact afterWake_keepsSound hfits (wakeW3_steps p s) fun h => wakeW3_sound h p
  | w4 p c0 c1 => exact afterWake_keepsSound hfits (wakeW4_steps p c0 c1 s) fun h => wakeW4_sound h p c0 c1
  | w5 p =>
    exact afterWake_keepsSound hfits ((Steps.goto s _).trans (.withPst _ _)) fun h => (h.goto _).withPst _
  | i1 p received => exact ⟨_, rfl, fun h => returnIdle_sound p received (idleI1_sound h p received)⟩
  | i2 p received => exact ⟨_, rfl, fun h => returnIdle_sound p received ((h.goto (.i2 p received)).withPst .idle)⟩
  | s1 => exact ⟨_, rfl, fun h => (returnUnit_state _).symm ▸ sleepS1_sound h⟩
  | s2 => exact ⟨_, rfl, fun h => (h.goto _).withPst _⟩
  | v1 p total => exact afterReceive_keepsSound p (receiveV1_keepsSound p total s)
  | v2 p => exact afterReceive_keepsSound p (receiveV2_keepsSound p s hreceiving.1 hreceiving.2)
  | v3 p r =>
    obtain ⟨hr, hf⟩ := hreceiving
    refine afterReceive_keepsSound p (Ran.thenRun_leaves (fun h => receiveV3_sound h hr p r) fun _ t ht hsound => ?_)
    obtain ⟨hr', hf'⟩ := receiveV3_ready hr hf ht
    exact (receiveV2_keepsSound p t hr' hf').after hsound
  | v4 p =>
    obtain ⟨hcur, hf⟩ := hreceiving
    exact afterReceive_keepsSound p (receiveV4_keepsSound (hcur ▸ BitVec.lt_irrefl _) hf p)
  | e0 c => exact executeE0_keepsSound c s
  | e1 c => exact executeE1_keepsSound hfits
  | e2 c => exact executeE2_keepsSound hfits.1
  | e3 c => exact executeE3_keepsSound c s
  | e4 c => exact executeE4_keepsSound c s
  | e5 c received => exact ⟨_, rfl, fun h => executeE5_sound h c received⟩
  | e6 c received => exact ⟨_, rfl, fun h => executeE6_sound h c received⟩
  | z1 zone address length => exact zoneReadZ1_keepsSound zone address length s
  | z2 zone address length => exact zoneReadZ2_keepsSound zone address length s
  | z3 param1 address length => exact zoneReadZ3_keepsSound param1 address length s
  | z4 payload => exact ⟨_, rfl, id⟩

end

/-! What every label has in common, whatever the state. A frame write whose data do not fit is no event the block may
cause, but it leaves the host's side alone like every other step. -/

/-- The parameters, the host's requests and the responses sent are unchanged. -/
structure Quiet (s t : State) : Prop where
  params : t.params = s.params
  requests : t.requests = s.requests
  responses : t.responses = s.responses

theorem Steps.quiet {s t : State} (h : Steps s t) : Quiet s t := ⟨h.params, h.requests, h.responses⟩

theorem Quiet.trans {s t u : State} (h : Quiet s t) (k : Quiet t u) : Quiet s u :=
  ⟨k.params.trans h.params, k.requests.trans h.requests, k.responses.trans h.responses⟩

/-- What leads from `s` to `t` leaves the host's side alone, and if the data of the cycle in progress fit it is made up
of steps the block may take. -/
structure Course (fits : Prop) (s t : State) : Prop where
  quiet : Quiet s t
  steps : fits → Steps s t

theorem Steps.course {fits : Prop} {s t : State} (h : Steps s t) : Course fits s t := ⟨h.quiet, fun _ => h⟩

section
variable {s : State} {x : Ran (List Byte)}

theorem executeE2_course {c : Command} (h : executeE2 c s = .ok x) : Course (c.fits s.params) s x.state := by
  refine ⟨?_, fun hc => executeE2_steps c s hc.1 x h⟩
  rw [executeE2_eq] at h
  rcases send_cases s.params.devAddr (commandFrame c) ((frameLoaded c s).goto (.e2 c)) with ⟨-, e⟩ | ⟨-, e⟩ <;>
    rw [e] at h
  · obtain ⟨hp, hq, hr⟩ := (executeE3_steps c _ x h).quiet
    exact ⟨hp, hq, hr⟩
  · cases h
    exact ⟨rfl, rfl, rfl⟩

theorem afterWake_course {p : Parent} {r : Ran Unit} (hr : Steps s r.state) (h : afterWake p r = .ok x) :
    Course (p.fits s.params) s x.state := by
  cases p with
  | host =>
    cases h
    rw [returnUnit_state]
    exact hr.course
  | execute c =>
    rcases r.cases with ⟨_, t, rfl⟩ | ⟨e, t, rfl⟩
    · obtain ⟨hquiet, hsteps⟩ := executeE2_course (s := t) h
      refine ⟨hr.quiet.trans hquiet, fun hc => hr.trans (hsteps ?_)⟩
      rwa [show t.params = s.params from hr.params]
    · cases h
      exact hr.course

theorem afterReceive_steps {p : Parent} {r : Run (List Byte)} (hr : ∀ y, r = .ok y → Steps s y.state)
    (h : afterReceive p r = .ok x) : Steps s x.state := by
  cases p with
  | host => exact hr x h
  | execute c =>
    cases r with
    | error f => cases h
    | ok y =>
      cases h
      exact Ran.andThen_state (hr y rfl) fun received t _ ht => ht.trans (executeE5_steps c received t)

theorem returnIdle_steps (p : Parent) (received : List Byte) {r : Ran Unit} (hr : Steps s r.state) :
    Steps s (returnIdle p received r).state := by
  cases p with
  | host => rwa [returnIdle, returnUnit_state]
  | execute c => exact Ran.andThen_state hr fun _ t _ ht => ht.trans (executeE6_steps c received t)

theorem receiveV4_steps (p : Parent) (h : receiveV4 p s = .ok x) : Steps s x.state := by
  unfold receiveV4 at h
  split at h
  · cases h
    exact .goto s _
  · cases h

/-- Step V3 and the passes after it. -/
theorem receiveV3_thenRun_steps (p : Parent) (r : BusReply)
    (h : ((receiveV3 p r s).thenRun fun _ t => receiveV2 p t) = .ok x) : Steps s x.state := by
  have hv := receiveV3_steps p r s
  rcases (receiveV3 p r s).cases with ⟨_, t, e⟩ | ⟨e', t, e⟩ <;> rw [e] at h hv
  · exact hv.trans (receiveV2_steps p t x h)
  · cases h
    exact hv

theorem zoneReadZ3_steps (param1 : Byte) (address : Half) (length : Byte)
    (h : zoneReadZ3 param1 address length s = .ok x) : Steps s x.state :=
  (Steps.goto s _).trans (executeE0_steps _ _ x h)

theorem rest_course {q : Seq} (h : q.rest s = .ok x) : Course (q.fits s.params) s x.state := by
  cases q with
  | ready | z4 =>
    cases h
    exact (Steps.refl s).course
  | w1 p => exact afterWake_course (wakeW1_steps p s) h
  | w2 p => exact afterWake_course (wakeW2_steps p s) h
  | w3 p => exact afterWake_course (wakeW3_steps p s) h
  | w4 p c0 c1 => exact afterWake_course (wakeW4_steps p c0 c1 s) h
  | w5 p => exact afterWake_course ((Steps.goto s _).trans (.withPst _ _)) h
  | i1 p received =>
    cases h
    exact (returnIdle_steps p received (idleI1_steps p received s)).course
  | i2 p received =>
    cases h
    exact (returnIdle_steps p received ((Steps.goto s _).trans (.withPst _ _))).course
  | s1 =>
    cases h
    rw [returnUnit_state]
    exact (sleepS1_steps s).course
  | s2 =>
    cases h
    exact ((Steps.goto s _).trans (.withPst _ _)).course
  | v1 p total => exact (afterReceive_steps (receiveV1_steps p total s) h).course
  | v2 p => exact (afterReceive_steps (receiveV2_steps p s) h).course
  | v3 p r => exact (afterReceive_steps (fun _ => receiveV3_thenRun_steps p r) h).course
  | v4 p => exact (afterReceive_steps (fun _ => receiveV4_steps p) h).course
  | e0 c => exact (executeE0_steps c s x h).course
  | e1 c => exact afterWake_course (p := .execute c) ((Steps.goto s (.e1 c)).trans (wakeW1_steps (.execute c) _)) h
  | e2 c => exact executeE2_course h
  | e3 c => exact (executeE3_steps c s x h).course
  | e4 c => exact (executeE4_steps c s x h).course
  | e5 c received =>
    cases h
    exact (executeE5_steps c received s).course
  | e6 c received =>
    cases h
    exact (executeE6_steps c received s).course
  | z1 zone address length => exact (zoneReadZ1_steps zone address length s x h).course
  | z2 zone address length => exact ((Steps.goto s _).trans (zoneReadZ3_steps _ address length h)).course
  | z3 param1 address length => exact (zoneReadZ3_steps param1 address length h).course

end

/-! The step. -/

/-- Settles O6: the step's answer to an empty list of requests. -/
theorem blockWaitsForRequest : Obligations.BlockWaitsForRequest := by
  intro s hs hq
  simp only [step, hs, hq]

/-- Settles O2: the state the instruction runs in is the one `takeRequest` leaves. -/
theorem stepRunsDecodedRequest : Obligations.StepRunsDecodedRequest := by
  intro s Q rest i hs hq hd
  have hrun : step s = exec i s.takeRequest := by simp only [step, hs, hq, hd]
  rw [hrun, State.takeRequest, hq, List.tail_cons]

/-- A step of a READY block with a request: whatever it is, the block ends the request's operation, or its rejection,
and sends the result. -/
theorem step_request {s : State} {Q : List Byte} {rest : List (List Byte)} (hs : s.seq = .ready)
    (hq : s.requests = Q :: rest) :
    ∃ x, step s = finish x ∧ Steps { s with requests := rest } x.state ∧ (s.Sound → x.state.Sound) := by
  cases hd : decode Q with
  | ok i =>
    obtain ⟨-, hop, -⟩ := isPacketOf_of_decode s.params hd
    obtain ⟨x, hx, hsteps, hsound⟩ := exec_operation hop { s with requests := rest }
    exact ⟨x, (stepRunsDecodedRequest s Q rest i hs hq hd).trans hx, hsteps, fun h => hsound { h with }⟩
  | error e =>
    exact ⟨.raise .invalidArgument { s with requests := rest }, step_of_decode_error hs hq hd, .refl _,
      fun h => { h with }⟩

/-- A step from a state of the invariant: the block waits, or it ends an operation, the one in progress or the one that
the next request asks for. Either way it has only caused events it may cause. -/
theorem step_inv {s : State} (h : s.Inv) :
    step s = .next s ∨ ∃ x, step s = finish x ∧ x.state.Sound ∧
      ∃ es, x.state.trace = s.trace ++ es ∧ ∀ e ∈ es, allowedEvent s.params e := by
  by_cases hs : s.seq = .ready
  · cases hq : s.requests with
    | nil => exact .inl (blockWaitsForRequest s hs hq)
    | cons Q rest =>
      obtain ⟨x, hx, hsteps, hsound⟩ := step_request hs hq
      exact .inr ⟨x, hx, hsound h.sound, hsteps.events⟩
  · obtain ⟨x, hx, hsound⟩ := rest_keepsSound h rfl
    exact .inr ⟨x, (step_busy hs).trans (congrArg finishRun hx), hsound h.sound,
      ((rest_course hx).steps h.seqFits).events⟩

/-- Settles O59: the operation that ends has kept the state sound, and after its response the block is READY. -/
theorem stepKeepsInvariant : Obligations.StepKeepsInvariant := by
  intro s t h ht
  rcases step_inv h with hwait | ⟨x, hx, hsound, -⟩
  · cases hwait.symm.trans ht
    exact h
  · cases hx.symm.trans ht
    exact (hsound.respond _).inv rfl

/-- Settles O60: waiting is a next state, and so is the end of an operation. -/
theorem invariantStateNeverStops : Obligations.InvariantStateNeverStops := by
  intro s h
  rcases step_inv h with hwait | ⟨x, hx, -⟩
  · exact ⟨s, hwait⟩
  · exact ⟨_, hx⟩

/-- Settles O55: the events of the operation that ends; a block that waits causes none. -/
theorem onlyStatedEventsHappen : Obligations.OnlyStatedEventsHappen := by
  intro s t h ht
  rcases step_inv h with hwait | ⟨x, hx, -, hevents⟩
  · cases hwait.symm.trans ht
    exact ⟨[], by simp, by simp⟩
  · cases hx.symm.trans ht
    exact hevents

/-- Settles O58: nothing is listed in the buffers, and the registers are zero. -/
theorem resetMeetsInvariant : Obligations.ResetMeetsInvariant :=
  State.Sound.inv
    { txWf := Memory.wf_nil
      txBelow := by rintro x ⟨⟩
      rxWf := Memory.wf_nil
      rxBelow := by rintro x ⟨⟩
      retryLe := Nat.zero_le _
      curLe := Nat.le_refl _
      txlenLe := Nat.zero_le _ } rfl

/-- Settles O1: the reset state is written with these values, and its buffers list nothing. -/
theorem resetLeavesStatedValues : Obligations.ResetLeavesStatedValues :=
  ⟨rfl, rfl, rfl, rfl, rfl, rfl, rfl, rfl, fun a => ⟨Memory.read_nil a, Memory.read_nil a⟩⟩

/-- Settles O7: the rest of the operation is quiet from every label, and its end sends the one response. -/
theorem runningOperationTakesNoRequest : Obligations.RunningOperationTakesNoRequest := by
  intro s t hs ht
  rw [step_busy hs] at ht
  cases hx : s.seq.rest s with
  | error f =>
    rw [hx] at ht
    cases ht
  | ok x =>
    rw [hx] at ht
    cases ht
    obtain ⟨hparams, hrequests, hresponses⟩ := (rest_course hx).quiet
    exact ⟨hrequests, rfl, hparams, _, congrArg (· ++ _) hresponses⟩

/-- Settles O8: `step_request`, whose operation leaves the host's side to the response that ends it. -/
theorem everyRequestGetsOneResponse : Obligations.EveryRequestGetsOneResponse := by
  intro s Q rest hs hq
  obtain ⟨x, hx, hsteps, -⟩ := step_request hs hq
  exact ⟨_, _, hx, congrArg (· ++ _) hsteps.responses, rfl, hsteps.requests, hsteps.params⟩

end Sys2Proof.Machine

/-! ## The checksum as a linear map (40_checksum.md R127, R130)

The bit step is linear over GF(2), so the checksum is (`crcUpdate_xor`), and for each of its injectivities it is enough
that only zero is taken to zero: of a byte fed to a zero accumulator, of an accumulator fed with a zero byte, and of
two bytes. -/

namespace Sys2Proof.Machine

theorem crcUpdate_append (acc : Half) (A B : List Byte) :
    crcUpdate acc (A ++ B) = crcUpdate (crcUpdate acc A) B := List.foldl_append

/-! Linearity. -/

/-- The bit step without its test: the polynomial is multiplied by the sum of the data bit and the top bit. -/
theorem crcStep_eq_xor (acc : Half) (d : Bool) :
    crcStep acc d = acc <<< 1 ^^^ if (d ^^ acc.msb) then poly else 0x0000 := by
  rw [crcStep]
  by_cases h : d = acc.msb <;> simp [h]

theorem crcStep_xor (a b : Half) (d e : Bool) :
    crcStep (a ^^^ b) (d ^^ e) = crcStep a d ^^^ crcStep b e := by
  have hbit : (d ^^ e ^^ (a ^^^ b).msb) = ((d ^^ a.msb) ^^ (e ^^ b.msb)) := by
    rw [BitVec.msb_xor]
    cases d <;> cases e <;> simp
  have hpoly (x y : Bool) : (if (x ^^ y) then poly else 0x0000) =
      (if x then poly else 0x0000) ^^^ if y then poly else 0x0000 := by
    cases x <;> cases y <;> simp
  rw [crcStep_eq_xor, crcStep_eq_xor, crcStep_eq_xor, hbit, hpoly, BitVec.shiftLeft_xor_distrib]
  ac_rfl

theorem crcByte_xor (a b : Half) (x y : Byte) : crcByte (a ^^^ b) (x ^^^ y) = crcByte a x ^^^ crcByte b y := by
  simp only [crcByte_eq_steps, BitVec.getLsbD_xor, crcStep_xor]

theorem crcUpdate_xor (a b : Half) (A B : List Byte) (h : A.length = B.length) :
    crcUpdate (a ^^^ b) (List.zipWith (· ^^^ ·) A B) = crcUpdate a A ^^^ crcUpdate b B := by
  induction A generalizing a b B with
  | nil =>
    cases B with
    | nil => rfl
    | cons y B => cases h
  | cons x A ih =>
    cases B with
    | nil => cases h
    | cons y B => rw [List.zipWith_cons_cons, crcUpdate_cons, crcByte_xor, ih _ _ _ (Nat.succ_inj.mp h),
        crcUpdate_cons, crcUpdate_cons]

/-- Settles O17. -/
theorem checksumIsLinear : Obligations.ChecksumIsLinear :=
  ⟨crcStep_xor, crcUpdate_xor, crcUpdate_zero_replicate_zero⟩

/-! What is taken to zero. -/

/-- The polynomial sets bit 0, which the shift leaves clear: a step to zero has not met it and has lost no bit. -/
theorem eq_zero_of_crcStep_false {a : Half} (h : crcStep a false = 0x0000) : a = 0x0000 := by
  have hmsb : a.msb = false := by
    by_contra hne
    have hbit0 := congrArg (BitVec.getLsbD · 0) h
    simp [crcStep_eq_xor, Bool.eq_true_of_not_eq_false hne, poly] at hbit0
  rw [crcStep_eq_xor, hmsb] at h
  apply BitVec.eq_of_getLsbD_eq
  intro i hi
  by_cases htop : i = 15
  · rw [htop, ← BitVec.msb_eq_getLsbD_last a, hmsb]
    rfl
  · have hshift := congrArg (BitVec.getLsbD · (i + 1)) h
    simpa [show i + 1 < 16 by omega, BitVec.getLsbD_eq_getElem hi] using hshift

theorem eq_zero_of_crcByte_zero {a : Half} (h : crcByte a 0x00 = 0x0000) : a = 0x0000 := by
  rw [crcByte_eq_steps] at h
  iterate 8 replace h := eq_zero_of_crcStep_false h
  exact h

theorem eq_zero_of_zero_crcByte : ∀ {b : Byte}, crcByte 0x0000 b = 0x0000 → b = 0x00 := by
  decide +kernel

theorem crcByte_xor_eq_zero {a b : Half} {x y : Byte} (h : crcByte a x = crcByte b y) :
    crcByte (a ^^^ b) (x ^^^ y) = 0x0000 := by
  rw [crcByte_xor, h]
  exact BitVec.xor_self

theorem crcByte_injective_byte {acc : Half} {b c : Byte} (h : crcByte acc b = crcByte acc c) : b = c := by
  have hzero := crcByte_xor_eq_zero h
  rw [BitVec.xor_self] at hzero
  exact BitVec.xor_eq_zero_iff.mp (eq_zero_of_zero_crcByte hzero)

theorem crcByte_injective_acc {acc acc' : Half} {b : Byte} (h : crcByte acc b = crcByte acc' b) : acc = acc' := by
  have hzero := crcByte_xor_eq_zero h
  rw [BitVec.xor_self] at hzero
  exact BitVec.xor_eq_zero_iff.mp (eq_zero_of_crcByte_zero hzero)

/-- Settles O18. -/
theorem checksumByteIsInjective : Obligations.ChecksumByteIsInjective :=
  ⟨fun _ _ _ => crcByte_injective_byte, fun _ _ _ => crcByte_injective_acc⟩

theorem crcUpdate_injective_acc {acc acc' : Half} {B : List Byte} (h : crcUpdate acc B = crcUpdate acc' B) :
    acc = acc' := by
  induction B generalizing acc acc' with
  | nil => exact h
  | cons b B ih => exact crcByte_injective_acc (ih h)

/-! Two bytes. -/

/-- The one accumulator that a byte takes to zero: the byte itself, its first bit at the top, above eight zeros. -/
theorem crcByte_reverse_append : ∀ b : Byte, crcByte (b.reverse ++ (0x00 : Byte)) b = 0x0000 := by
  decide +kernel

theorem eq_zero_of_lo8_crcByte : ∀ {b : Byte}, lo8 (crcByte 0x0000 b) = 0x00 → b = 0x00 := by
  decide +kernel

theorem eq_zero_of_two_crcBytes {a b : Byte} (h : crcByte (crcByte 0x0000 a) b = 0x0000) : a = 0x00 ∧ b = 0x00 := by
  have hacc : crcByte 0x0000 a = b.reverse ++ (0x00 : Byte) :=
    crcByte_injective_acc (h.trans (crcByte_reverse_append b).symm)
  have ha : a = 0x00 := eq_zero_of_lo8_crcByte (hacc ▸ lo8_fromLe16 0x00 b.reverse)
  rw [ha, crcByte_zero_zero] at h
  exact ⟨ha, eq_zero_of_zero_crcByte h⟩

theorem crc16_pair_injective {a b c d : Byte} (h : crc16 [a, b] = crc16 [c, d]) : a = c ∧ b = d := by
  have hzero : crcByte (crcByte 0x0000 (a ^^^ c)) (b ^^^ d) = 0x0000 := by
    have hfirst : crcByte 0x0000 (a ^^^ c) = crcByte 0x0000 a ^^^ crcByte 0x0000 c := crcByte_xor 0x0000 0x0000 a c
    rw [hfirst]
    exact crcByte_xor_eq_zero h
  obtain ⟨hac, hbd⟩ := eq_zero_of_two_crcBytes hzero
  exact ⟨BitVec.xor_eq_zero_iff.mp hac, BitVec.xor_eq_zero_iff.mp hbd⟩

/-- Settles O19: a pair of bytes is a 16-bit value, and an injective map of a finite type to itself is onto. -/
theorem twoByteChecksumIsBijective : Obligations.TwoByteChecksumIsBijective := by
  refine ⟨fun a b c d => crc16_pair_injective, fun v => ?_⟩
  have hinj : Function.Injective fun u : Half => crc16 [lo8 u, hi8 u] := by
    intro u w h
    obtain ⟨hlo, hhi⟩ := crc16_pair_injective h
    rw [← fromLe16_le16 u, hlo, hhi, fromLe16_le16]
  have : Finite Half := Finite.of_injective BitVec.toFin fun _ _ => BitVec.toFin_inj.mp
  obtain ⟨u, hu⟩ := Finite.surjective_of_injective hinj v
  exact ⟨_, _, hu⟩

/-! The pieces of one input (R127). -/

/-- Settles O16: each update goes on from the accumulator of the one before, and none touches anything else. -/
theorem splitUpdatesEqualOneUpdate : Obligations.SplitUpdatesEqualOneUpdate := by
  intro pieces
  induction pieces with
  | nil =>
    exact fun s => ⟨s, rfl, rfl, rfl, ⟨rfl, rfl, rfl⟩, ⟨rfl, fun _ => rfl⟩, fun _ => rfl, ⟨rfl, rfl, rfl⟩, rfl, rfl⟩
  | cons B pieces ih =>
    intro s
    obtain ⟨t, ht, hacc, hrest⟩ := ih ((s.withAcc (crcUpdate s.acc B)).respond (.ok []))
    refine ⟨t, ?_, ?_, hrest⟩
    · rw [List.map_cons, runAll, exec_crcUpdate]
      exact ht
    · rw [hacc, List.flatten_cons, crcUpdate_append]
      rfl

end Sys2Proof.Machine

/-! ## Frames and responses (42_frame_codec.md R162 to R165, 30_encoding.md R88 to R91)

A sequence with a value behind it has this value as its trailer and itself as the part that is covered
(`coveredPart_append_le16`); command frames and response frames are such sequences. A response that passes, altered in
one covered byte, has another checksum (`crc16_set_ne`). -/

namespace Sys2Proof.Machine

/-! A sequence with a checksum behind it. -/

section
variable (B : List Byte) (v : Half)

theorem length_append_le16 : (B ++ le16 v).length = B.length + 2 := List.length_append

theorem coveredPart_append_le16 : coveredPart (B ++ le16 v) (B.length + 2) = B :=
  List.take_left

theorem payloadPart_append_le16 (h : 1 ≤ B.length) : payloadPart (B ++ le16 v) (B.length + 2) = B.drop 1 := by
  rw [payloadPart, slice, List.drop_append_of_le_length h]
  exact List.take_left' (by rw [List.length_drop, rspOverhead]; omega)

end

/-! `validate`. -/

section
variable {raw : List Byte} {L : Nat}

theorem validate_wrongLength (h : raw.length ≠ L) : validate raw L = .error .shortResponse := if_pos h

section
variable (hlen : raw.length = L)
include hlen

theorem validate_mismatch (h : trailer raw L ≠ crc16 (coveredPart raw L)) :
    validate raw L = .error .checksumMismatch := (if_neg (not_not_intro hlen)).trans (if_pos h)

theorem validate_match (h : trailer raw L = crc16 (coveredPart raw L)) :
    validate raw L = .ok (payloadPart raw L) := (if_neg (not_not_intro hlen)).trans (if_neg (not_not_intro h))

/-- Of a response of the right length `validate` says what the checksum test makes of it. -/
theorem checkFrame_eq_validate (s : State) :
    checkFrame L raw s = ⟨s.withAcc (crc16 (coveredPart raw L)), validate raw L⟩ := by
  rw [checkFrame_eq]
  split
  next h =>
    rw [validate_match hlen h]
    rfl
  next h =>
    rw [validate_mismatch hlen h]
    rfl

end

theorem validate_eq_ok {payload : List Byte} (h : validate raw L = .ok payload) :
    raw.length = L ∧ trailer raw L = crc16 (coveredPart raw L) ∧ payload = payloadPart raw L := by
  by_cases hlen : raw.length = L
  · by_cases hsum : trailer raw L = crc16 (coveredPart raw L)
    · exact ⟨hlen, hsum, Except.ok.inj (h.symm.trans (validate_match hlen hsum))⟩
    · cases h.symm.trans (validate_mismatch hlen hsum)
  · cases h.symm.trans (validate_wrongLength hlen)

end

/-- DECODE of a response of the right length. -/
theorem exec_decode_validate {expected : Byte} {raw : List Byte} (hL : expectedFits expected)
    (hlen : raw.length = expected.toNat) (s : State) :
    exec (.decode expected raw) s = .next ((s.withAcc (crc16 (coveredPart raw expected.toNat))).respond
      (Response.ofResult (validate raw expected.toNat))) := by
  rw [exec_decode_checkFrame hL hlen, checkFrame_eq_validate hlen]
  rfl

/-- Settles O24: `exec_decode_validate`, and for another length ShortResponse on both sides. -/
theorem decodeAnswersAsValidate : Obligations.DecodeAnswersAsValidate := by
  intro expected raw s hL
  by_cases hlen : raw.length = expected.toNat
  · exact ⟨_, exec_decode_validate hL hlen s, rfl, rfl⟩
  · rw [validate_wrongLength hlen]
    exact ⟨_, exec_decode_wrongLength hL hlen s, rfl, rfl⟩

/-! One altered byte (R165). -/

theorem crc16_set_ne {B : List Byte} {k : Nat} (hk : k < B.length) {y : Byte} (hy : y ≠ B[k]) :
    crc16 (B.set k y) ≠ crc16 B := by
  intro h
  have hsplit : B = B.take k ++ B[k] :: B.drop (k + 1) := by
    rw [← List.drop_eq_getElem_cons hk, List.take_append_drop]
  have hset : B.set k y = B.take k ++ y :: B.drop (k + 1) := List.set_eq_take_append_cons_drop.trans (if_pos hk)
  rw [hset, show crc16 B = crc16 (B.take k ++ B[k] :: B.drop (k + 1)) from congrArg crc16 hsplit, crc16, crc16,
    crcUpdate_append, crcUpdate_append, crcUpdate_cons, crcUpdate_cons] at h
  exact hy (crcByte_injective_byte (crcUpdate_injective_acc h))

/-- Settles O25: the trailer is that of the good response, and the checksum of the covered part is another. -/
theorem alteredResponseIsRejected : Obligations.AlteredResponseIsRejected := by
  intro raw raw' payload L k hL hvalid hk hlen' hdiffer hsame
  obtain ⟨hlen, hsum, -⟩ := validate_eq_ok hvalid
  have hkraw : k < raw.length := by omega
  have hkraw' : k < raw'.length := by omega
  have hraw' : raw' = raw.set k raw'[k] := by
    refine List.ext_getElem? fun j => ?_
    by_cases hj : j = k
    · rw [hj, List.getElem?_set_self hkraw, List.getElem?_eq_getElem hkraw']
    · rw [List.getElem?_set_ne (Ne.symm hj), hsame j hj]
  have htrailer : trailer raw' L = trailer raw L := by
    rw [trailer, trailer, List.getD_eq_getElem?_getD, List.getD_eq_getElem?_getD, List.getD_eq_getElem?_getD,
      List.getD_eq_getElem?_getD, hsame (L - 2) (by omega), hsame (L - 1) (by omega)]
  have hkcovered : k < (coveredPart raw L).length := by
    rw [coveredPart, slice, List.drop_zero, List.length_take]
    omega
  have hcovered : coveredPart raw' L = (coveredPart raw L).set k raw'[k] := by
    conv_lhs => rw [hraw']
    rw [coveredPart, coveredPart, slice, slice, List.drop_zero, List.drop_zero, List.take_set]
  refine validate_mismatch (hlen'.trans hlen) ?_
  rw [htrailer, hsum, hcovered]
  refine (crc16_set_ne hkcovered fun hy => hdiffer ?_).symm
  rw [List.getElem?_eq_getElem hkraw', List.getElem?_eq_getElem hkraw, hy]
  simp [coveredPart, slice]

/-! The command frame (R162). -/

theorem length_frameBody (opcode param1 : Byte) (param2 : Half) (data : List Byte) :
    (frameBody opcode param1 param2 data).length = 5 + data.length := by
  simp [frameBody, le16]
  omega

/-- Settles O20: behind its marker a frame is its body with the checksum of the body, so the body is what is covered. -/
theorem commandFrameHasStatedShape : Obligations.CommandFrameHasStatedShape := by
  intro opcode param1 param2 data hdata F
  let body := frameBody opcode param1 param2 data
  have hlen : F.length = 8 + data.length := length_encodeFrame opcode param1 param2 data
  have hbody : body.length = 5 + data.length := length_frameBody opcode param1 param2 data
  have hdrop : F.drop 1 = body ++ le16 (crc16 body) := rfl
  have htake : (F.drop 1).take (5 + data.length) = body := by
    rw [hdrop, ← hbody]
    exact List.take_left
  have hpayload : (F.drop 2).take (4 + data.length) = body.drop 1 := by
    rw [← htake, List.drop_take, List.drop_drop]
    congr 1
    omega
  have hvalid : validate (F.drop 1) (7 + data.length) = .ok (body.drop 1) := by
    rw [hdrop, show 7 + data.length = body.length + 2 by omega, validate_match (length_append_le16 _ _),
      payloadPart_append_le16 _ _ (by omega)]
    rw [trailer_append_le16, coveredPart_append_le16]
  refine ⟨rfl, hlen, ?_, by omega, rfl, rfl, rfl, rfl, List.take_left, ?_, hpayload ▸ hvalid⟩
  · rw [hlen]
    exact congrArg (fun n => some (BitVec.ofNat 8 n)) (by rw [cmdOverhead]; omega)
  · rw [htake]
    exact trailer_encodeFrame opcode param1 param2 data

/-- Settles O21: the operands stand at fixed places, and frames of one length have data of one length. -/
theorem commandFrameDeterminesOperands : Obligations.CommandFrameDeterminesOperands := by
  intro opcode param1 opcode' param1' param2 param2' data data' _ _ h
  have hlen : data.length = data'.length := by
    have := congrArg List.length h
    rw [length_encodeFrame, length_encodeFrame] at this
    omega
  simp only [encodeFrame, frameBody, List.cons_append, List.cons.injEq, le16, List.nil_append] at h
  obtain ⟨-, -, hop, hp1, hlo, hhi, htail⟩ := h
  refine ⟨hop, hp1, ?_, (List.append_inj htail hlen).1⟩
  rw [← fromLe16_le16 param2, hlo, hhi, fromLe16_le16]

/-! The wire patterns. -/

theorem exec_wireCommandFrame_fits {s : State} {data : List Byte} (h : dataFits s.params data) (opcode param1 : Byte)
    (param2 : Half) :
    exec (.wireCommandFrame opcode param1 param2 data) s =
      .next (s.afterWrite s.params.devAddr (encodeFrame opcode param1 param2 data)) := if_pos h

theorem exec_wireCommandFrame_tooLong {s : State} {data : List Byte} (h : ¬ dataFits s.params data)
    (opcode param1 : Byte) (param2 : Half) :
    exec (.wireCommandFrame opcode param1 param2 data) s = .refused .frameTooLong := if_neg h

/-- Settles O50: the pattern is the data of the write, and nothing follows it. -/
theorem wirePatternsAreSingleWrites : Obligations.WirePatternsAreSingleWrites :=
  fun _ => ⟨rfl, rfl, rfl, fun opcode param1 param2 _ h => exec_wireCommandFrame_fits h opcode param1 param2⟩

/-- Settles O51: count byte and payload are the covered part of the frame, and the checksum is its trailer. -/
theorem wireResponseFrameIsChecked : Obligations.WireResponseFrameIsChecked := by
  intro count payload checksum s c
  have hrun : exec (.wireResponseFrame count payload checksum) s =
      finish (checkFrame ((count :: payload).length + 2) ((count :: payload) ++ le16 checksum) s) := by
    rw [length_countedPayload]
    rfl
  rw [hrun, checkFrame_eq, trailer_append_le16, coveredPart_append_le16,
    payloadPart_append_le16 (count :: payload) checksum (Nat.succ_le_succ (Nat.zero_le _))]
  by_cases hsum : checksum = c
  · rw [if_pos hsum, if_pos hsum]
    rfl
  · rw [if_neg hsum, if_neg hsum]
    rfl

/-! The first bytes of a wake response (41_power.md R142). -/

/-- The checksum of two bytes determines them, so the tests of step W4 leave one pair. -/
theorem wakeVerified_iff (c0 c1 : Byte) : wakeVerified c0 c1 ↔ c0 = 0x04 ∧ c1 = 0x11 := by
  have hlead : crc16 [0x04, 0x11] = 0x4333 := wakeCrc_eq
  constructor
  · rintro ⟨-, hsum⟩
    exact crc16_pair_injective (hsum.trans hlead.symm)
  · rintro ⟨rfl, rfl⟩
    exact ⟨rfl, hlead⟩

/-- Settles O27: `PST` and the response are decided by `wakeVerified`. -/
theorem wakeAcceptsExactlyOnePair : Obligations.WakeAcceptsExactlyOnePair := by
  intro s B c0 c1 c2 c3 h hr
  have hrun := exec_wake_response (congrArg writeResultOf h) hr
  by_cases hv : wakeVerified c0 c1
  · have hpair := (wakeVerified_iff c0 c1).mp hv
    rw [if_pos hv, if_pos hv] at hrun
    exact ⟨_, hrun, iff_of_true rfl hpair, iff_of_true rfl hpair⟩
  · have hpair := mt (wakeVerified_iff c0 c1).mpr hv
    rw [if_neg hv, if_neg hv] at hrun
    exact ⟨_, hrun, iff_of_false (by simp) hpair, iff_of_false (by simp) hpair⟩

/-! The operations that do nothing on the bus. -/

/-- Settles O49: the operation raises at once. -/
theorem zoneWriteIsUnimplemented : Obligations.ZoneWriteIsUnimplemented :=
  ⟨fun zone lo hi _ _ h => decode_zoneWrite h zone lo hi, fun _ _ _ _ _ => rfl⟩

/-- Settles O37: the first branch of `executeIsItsSteps`. -/
theorem executeRefusesBadArguments : Obligations.ExecuteRefusesBadArguments :=
  fun opcode param1 expected param2 data s h =>
    (executeIsItsSteps.2 opcode param1 expected param2 data s).trans (if_pos h)

end Sys2Proof.Machine

/-! ## The receive against known answers (43_transport.md R187 to R191)

`receiveRefinesGather` makes every claim about RECEIVE one about `gather`. Of any list of answers `gather` makes at most
one read an answer, each of 1 to 32 bytes, and ends complete or with the 20th failure (`GatherBounds.of_gather`). Where
the answers are in the script, RECEIVE takes as many of them as `gather` makes reads (`exec_receive_of_script`). -/

namespace Sys2Proof.Machine

section
variable {dev : BusAddr} {total failed : Nat} {got : List Byte} {events : List Event}

/-! `gather` on any answers. -/

/-- One pass of `gather`: a good chunk, the 20th failed read, or another failed read. -/
theorem gather_cons_cases (h : ¬ total ≤ got.length) (r : BusReply) :
    (∃ C, r = .ok C ∧ chunkFits total got C ∧ ∀ rest, gather dev total got failed events (r :: rest) =
      gather dev total (got ++ C) failed (events ++ [.rd dev (min 32 (total - got.length)) r]) rest) ∨
    (failed + 1 = 20 ∧ ∀ rest, gather dev total got failed events (r :: rest) =
      some ⟨true, got, 20, events ++ [.rd dev (min 32 (total - got.length)) r]⟩) ∨
    (failed + 1 ≠ 20 ∧ ∀ rest, gather dev total got failed events (r :: rest) =
      gather dev total got (failed + 1) (events ++ [.rd dev (min 32 (total - got.length)) r]) rest) := by
  by_cases hgood : ∃ C, r = .ok C ∧ chunkFits total got C
  · obtain ⟨C, rfl, hC⟩ := hgood
    exact .inl ⟨C, rfl, hC, fun rest => gather_good h hC⟩
  · have hbad : ∀ C, r = .ok C → ¬ chunkFits total got C := fun C hr hC => hgood ⟨C, hr, hC⟩
    by_cases hlast : failed + 1 = 20
    · exact .inr (.inl ⟨hlast, fun rest => (gather_bad h hbad).trans (if_pos hlast)⟩)
    · exact .inr (.inr ⟨hlast, fun rest => (gather_bad h hbad).trans (if_neg hlast)⟩)

theorem gather_nil (h : ¬ total ≤ got.length) : gather dev total got failed events [] = none := if_neg h

/-- Answers after the ones `gather` ends with are not asked for. -/
theorem gather_append {replies : List BusReply} {g : Gathered}
    (h : gather dev total got failed events replies = some g) (more : List BusReply) :
    gather dev total got failed events (replies ++ more) = some g := by
  induction replies generalizing got failed events with
  | nil =>
    by_cases hc : total ≤ got.length
    · rw [gather_complete hc] at h ⊢
      exact h
    · cases (gather_nil hc).symm.trans h
  | cons r replies ih =>
    by_cases hc : total ≤ got.length
    · rw [gather_complete hc] at h ⊢
      exact h
    · rcases gather_cons_cases (dev := dev) (failed := failed) (events := events) hc r with
        ⟨C, -, -, e⟩ | ⟨-, e⟩ | ⟨-, e⟩ <;> rw [e] at h <;> rw [List.cons_append, e]
      · exact ih h
      · exact h
      · exact ih h

/-- What bounds the receive `g` that has begun with the reads `events` and may still be given `n` answers. -/
structure GatherBounds (dev : BusAddr) (total : Nat) (events : List Event) (n : Nat) (g : Gathered) : Prop where
  reads : ∃ es, g.events = events ++ es ∧ es.length ≤ n ∧
    ∀ e ∈ es, ∃ m r, e = .rd dev m r ∧ 1 ≤ m ∧ m ≤ 32
  exhausted : g.exhausted = true → g.failed = 20 ∧ g.got.length < total
  complete : g.exhausted = false → g.failed ≤ 19

/-- A pass adds one read, of 1 to 32 bytes. -/
theorem GatherBounds.pass {r : BusReply} {n : Nat} {g : Gathered} (h : ¬ total ≤ got.length)
    (hg : GatherBounds dev total (events ++ [.rd dev (min 32 (total - got.length)) r]) n g) :
    GatherBounds dev total events (n + 1) g := by
  obtain ⟨es, hes, hlen, hall⟩ := hg.reads
  refine { hg with reads := ⟨_ :: es, by rw [hes, List.append_assoc]; rfl, Nat.succ_le_succ hlen, ?_⟩ }
  intro e he
  rcases List.mem_cons.mp he with rfl | he
  · exact ⟨_, r, rfl, by omega, Nat.min_le_left _ _⟩
  · exact hall e he

/-- The receive ends without another read. -/
theorem GatherBounds.stop (n : Nat) {g : Gathered} (hev : g.events = events)
    (hex : g.exhausted = true → g.failed = 20 ∧ g.got.length < total) (hco : g.exhausted = false → g.failed ≤ 19) :
    GatherBounds dev total events n g :=
  ⟨⟨[], by rw [hev, List.append_nil], Nat.zero_le _, nofun⟩, hex, hco⟩

theorem GatherBounds.of_gather {replies : List BusReply} {g : Gathered} (hf : failed ≤ 19)
    (h : gather dev total got failed events replies = some g) : GatherBounds dev total events replies.length g := by
  induction replies generalizing got failed events with
  | nil =>
    by_cases hc : total ≤ got.length
    · cases (gather_complete hc _).symm.trans h
      exact .stop _ rfl nofun fun _ => hf
    · cases (gather_nil hc).symm.trans h
  | cons r replies ih =>
    by_cases hc : total ≤ got.length
    · cases (gather_complete hc _).symm.trans h
      exact .stop _ rfl nofun fun _ => hf
    · rcases gather_cons_cases (dev := dev) (failed := failed) (events := events) hc r with
        ⟨C, -, -, e⟩ | ⟨-, e⟩ | ⟨hne, e⟩
      · exact .pass hc (ih hf ((e _).symm.trans h))
      · cases (e _).symm.trans h
        exact .pass hc (.stop _ rfl (fun _ => ⟨rfl, Nat.not_le.mp hc⟩) nofun)
      · exact .pass hc (ih (by omega) ((e _).symm.trans h))

/-! `gather` on two kinds of answers. -/

/-- Failed reads that do not reach the bound are counted, and the receive goes on. -/
theorem gather_failures (h : ¬ total ≤ got.length) {k : Nat} (hk : failed + k ≤ 19) (rest : List BusReply) :
    gather dev total got failed events (List.replicate k .err ++ rest) = gather dev total got (failed + k)
      (events ++ List.replicate k (.rd dev (min 32 (total - got.length)) .err)) rest := by
  induction k generalizing failed events with
  | zero => rw [List.replicate_zero, List.replicate_zero, List.append_nil]; rfl
  | succ k ih =>
    have hne : ¬ failed + 1 = 20 := by omega
    rw [List.replicate_succ, List.cons_append, gather_bad h (fun _ hr => by cases hr), if_neg hne, ih (by omega),
      List.append_assoc, List.replicate_succ, show failed + 1 + k = failed + (k + 1) by omega]
    rfl

theorem fullChunks_nil (fuel : Nat) : fullChunks fuel [] = [] := by
  cases fuel <;> rfl

theorem fullChunks_succ {B : List Byte} (h : B ≠ []) (fuel : Nat) :
    fullChunks (fuel + 1) B = B.take 32 :: fullChunks fuel (B.drop 32) := if_neg h

/-- A transport that delivers all it is asked for has no failed read. -/
theorem gather_fullChunks {fuel : Nat} {B : List Byte} (hfuel : B.length ≤ fuel)
    (htotal : got.length + B.length = total) :
    gather dev total got failed events ((fullChunks fuel B).map .ok) =
      some ⟨false, got ++ B, failed, events ++ (fullChunks fuel B).map fun C => .rd dev C.length (.ok C)⟩ := by
  induction fuel generalizing got events B with
  | zero =>
    obtain rfl := List.eq_nil_of_length_eq_zero (Nat.le_zero.mp hfuel)
    rw [gather_complete (by simpa using htotal.ge), fullChunks_nil, List.append_nil, List.map_nil, List.append_nil]
  | succ fuel ih =>
    by_cases hB : B = []
    · rw [hB] at htotal ⊢
      rw [gather_complete (by simpa using htotal.ge), fullChunks_nil, List.append_nil, List.map_nil, List.append_nil]
    · have hpos : 0 < B.length := List.length_pos_iff.mpr hB
      have hchunk : (B.take 32).length = min 32 (total - got.length) := by
        rw [List.length_take]
        omega
      have hfits : chunkFits total got (B.take 32) := ⟨by omega, hchunk.le⟩
      rw [fullChunks_succ hB, List.map_cons, gather_good (by omega) hfits,
        ih (by rw [List.length_drop]; omega) (by rw [List.length_append, List.length_drop]; omega),
        List.append_assoc, List.take_append_drop, List.append_assoc, List.map_cons, hchunk]
      rfl

theorem length_fullChunks {fuel : Nat} {B : List Byte} (h : B.length ≤ fuel) :
    (fullChunks fuel B).length = (B.length + 31) / 32 := by
  induction fuel generalizing B with
  | zero =>
    obtain rfl := List.eq_nil_of_length_eq_zero (Nat.le_zero.mp h)
    rfl
  | succ fuel ih =>
    by_cases hB : B = []
    · rw [hB, fullChunks_nil]
      rfl
    · have hpos : 0 < B.length := List.length_pos_iff.mpr hB
      rw [fullChunks_succ hB, List.length_cons, ih (by rw [List.length_drop]; omega), List.length_drop]
      omega

end

/-! The answers a script lists. -/

theorem length_nextReplies (n : Nat) (s : State) : (nextReplies n s).length = n := by
  induction n generalizing s with
  | zero => rfl
  | succ n ih => rw [nextReplies, List.length_cons, ih]

section
variable {s : State} {replies rest : List BusReply} (h : s.script = replies ++ rest)
include h

theorem nextReplies_of_script (n : Nat) :
    nextReplies (replies.length + n) s = replies ++ nextReplies n (dropReplies replies.length s) := by
  induction replies generalizing s with
  | nil => rw [List.length_nil, Nat.zero_add]; rfl
  | cons r replies ih =>
    have hdrop : s.dropReply.script = replies ++ rest := by rw [State.dropReply_script, h]; rfl
    rw [List.length_cons, Nat.add_right_comm, nextReplies, State.nextReply_cons h, ih hdrop]
    rfl

theorem dropReplies_of_script :
    (dropReplies replies.length s).script = rest ∧ (dropReplies replies.length s).oracle = s.oracle := by
  induction replies generalizing s with
  | nil => exact ⟨h, rfl⟩
  | cons r replies ih =>
    have hdrop : s.dropReply.script = replies ++ rest := by rw [State.dropReply_script, h]; rfl
    have horacle : s.dropReply.oracle = s.oracle := by rw [State.dropReply_oracle, h]; rfl
    rw [← horacle]
    exact ih hdrop

/-- RECEIVE against answers that its script lists and that are all asked for. -/
theorem exec_receive_of_script {total : Byte} {g : Gathered} (hlen : replies.length ≤ total.toNat + 19)
    (hg : gather s.params.devAddr total.toNat [] 0 [] replies = some g) (hall : g.events.length = replies.length) :
    ∃ t, exec (.receive total) s = .next t ∧ ReceiveEnds s total g t ∧ t.script = rest ∧ t.oracle = s.oracle := by
  obtain ⟨-, g', t, hg', ht, hend⟩ := receiveRefinesGather total s
  have hmore : nextReplies (total.toNat + 19) s =
      replies ++ nextReplies (total.toNat + 19 - replies.length) (dropReplies replies.length s) := by
    rw [← nextReplies_of_script h, Nat.add_sub_cancel' hlen]
  rw [hmore, gather_append hg] at hg'
  cases hg'
  obtain ⟨hscript, horacle⟩ := dropReplies_of_script h
  have hleft : repliesLeft (dropReplies g.events.length s) t := hend.2.1
  rw [hall] at hleft
  exact ⟨t, ht, hend, hleft.1.trans hscript, hleft.2.trans horacle⟩

end

section
variable {total : Byte} {s : State}

/-- RECEIVE of at least one byte when the next 20 answers are `Err`. -/
theorem exec_receive_exhausted {rest : List BusReply} (h0 : 0 < total.toNat)
    (h : s.script = List.replicate 20 .err ++ rest) :
    ∃ t, exec (.receive total) s = .next t ∧
      ReceiveEnds s total
        ⟨true, [], 20, List.replicate 20 (.rd s.params.devAddr (min 32 total.toNat) .err)⟩ t ∧
      t.script = rest ∧ t.oracle = s.oracle := by
  refine exec_receive_of_script h (by rw [List.length_replicate]; omega) ?_ (by simp)
  have hmissing : ¬ total.toNat ≤ ([] : List Byte).length := Nat.not_le.mpr h0
  rw [List.replicate_succ' (n := 19), gather_failures hmissing (by decide),
    gather_bad hmissing (fun _ hr => by cases hr), if_pos (by decide), List.replicate_succ' (n := 19)]
  rfl

/-- RECEIVE when the next answers are the bytes `B` in full chunks. -/
theorem exec_receive_fullReplies {B : List Byte} {rest : List BusReply} (hB : B.length = total.toNat)
    (h : s.script = fullReplies B ++ rest) :
    ∃ t, exec (.receive total) s = .next t ∧
      ReceiveEnds s total ⟨false, B, 0, fullReads s.params.devAddr B⟩ t ∧
      t.script = rest ∧ t.oracle = s.oracle := by
  refine exec_receive_of_script h ?_ (gather_fullChunks (Nat.le_refl _) (by rw [← hB]; exact Nat.zero_add _)) ?_
  · rw [fullReplies, List.length_map, length_fullChunks (Nat.le_refl _)]
    omega
  · exact (List.length_map _).trans (List.length_map _).symm

end

/-! RECEIVE in every state. -/

/-- RECEIVE ends as some `g`, which is bounded as `GatherBounds` says. -/
theorem exec_receive_bounds (total : Byte) (s : State) :
    ∃ g t, exec (.receive total) s = .next t ∧ ReceiveEnds s total g t ∧
      GatherBounds s.params.devAddr total.toNat [] (total.toNat + 19) g := by
  obtain ⟨-, g, t, hg, ht, hend⟩ := receiveRefinesGather total s
  have hbounds := GatherBounds.of_gather (Nat.zero_le _) hg
  rw [length_nextReplies] at hbounds
  exact ⟨g, t, ht, hend, hbounds⟩

/-- Settles O33: the reads of `GatherBounds`, from the start. -/
theorem receiveReadsAreBounded : Obligations.ReceiveReadsAreBounded := by
  intro total s
  obtain ⟨g, t, ht, ⟨htrace, -⟩, hbounds⟩ := exec_receive_bounds total s
  obtain ⟨es, hes, hlen, hall⟩ := hbounds.reads
  exact ⟨t, es, ht, by rw [htrace, hes, List.nil_append], hlen, hall⟩

/-- Settles O34: complete and exhausted, each with what `ReceiveEnds` and `GatherBounds` say of it. -/
theorem receiveReturnsAllOrNothing : Obligations.ReceiveReturnsAllOrNothing := by
  intro total s
  obtain ⟨g, t, ht, ⟨-, -, hretry, hcur, htotal, hexhausted, hcomplete, hacc, htx, hhost⟩, hbounds⟩ :=
    exec_receive_bounds total s
  refine ⟨t, ht, htotal, hacc, htx, hhost, ?_⟩
  cases hg : g.exhausted with
  | false =>
    obtain ⟨hpst, hend, hrx, hlen⟩ := hcomplete hg
    exact .inl ⟨g.got, hlen, hend, hrx, BitVec.eq_of_toNat_eq (hcur.trans hlen), hretry.trans_le (hbounds.complete hg),
      hpst⟩
  | true =>
    obtain ⟨hpst, hend⟩ := hexhausted hg
    obtain ⟨hfailed, hlt⟩ := hbounds.exhausted hg
    exact .inr ⟨hend, BitVec.eq_of_toNat_eq (hretry.trans hfailed), hcur.trans_lt hlt, hpst⟩

theorem toNat_pos_of_ne_zero {b : Byte} (h : b ≠ 0) : 0 < b.toNat :=
  Nat.pos_of_ne_zero fun h0 => h (BitVec.eq_of_toNat_eq h0)

/-- Settles O32: 20 failed reads exhaust the receive; 19 are counted, and the chunk after them completes it. -/
theorem receiveGivesUpAtTwentiethFailure : Obligations.ReceiveGivesUpAtTwentiethFailure := by
  refine ⟨fun total s rest h0 h => ?_, fun total C s rest h0 hC hC32 h => ?_⟩
  · obtain ⟨t, ht, ⟨htrace, -, hretry, hcur, htotal, hexhausted, -, hacc, htx, hhost⟩, hscript, -⟩ :=
      exec_receive_exhausted (toNat_pos_of_ne_zero h0) h
    obtain ⟨hpst, hend⟩ := hexhausted rfl
    exact ⟨t, ht, htrace, hscript, BitVec.eq_of_toNat_eq hretry, BitVec.eq_of_toNat_eq hcur, htotal, hpst, hend,
      hacc, htx, hhost⟩
  · have hpos := toNat_pos_of_ne_zero h0
    have hmissing : ¬ total.toNat ≤ ([] : List Byte).length := Nat.not_le.mpr hpos
    have hfits : chunkFits total.toNat [] C := ⟨hC ▸ hpos, Nat.le_min.mpr ⟨hC32, hC.le⟩⟩
    have hsplit : s.script = (List.replicate 19 .err ++ [.ok C]) ++ rest := by rw [h, List.append_assoc]; rfl
    have hg := (gather_failures (dev := s.params.devAddr) (events := []) hmissing (failed := 0) (k := 19) (by decide)
      [.ok C]).trans ((gather_good hmissing hfits).trans (gather_complete hC.ge []))
    obtain ⟨t, ht, ⟨-, -, hretry, hcur, -, -, hcomplete, -⟩, hscript, -⟩ :=
      exec_receive_of_script hsplit (by simp; omega) hg (by simp)
    obtain ⟨hpst, hend, -⟩ := hcomplete rfl
    exact ⟨t, ht, hscript, BitVec.eq_of_toNat_eq hretry, BitVec.eq_of_toNat_eq (hcur.trans hC), hpst, hend⟩

/-- Settles O36: the chunks are all good, one read each. -/
theorem receiveInFullChunks : Obligations.ReceiveInFullChunks := by
  intro total B rest s hB h
  obtain ⟨t, ht, ⟨htrace, -, hretry, hcur, -, -, hcomplete, -⟩, hscript, -⟩ := exec_receive_fullReplies hB h
  obtain ⟨hpst, hend, -⟩ := hcomplete rfl
  have hreads : (fullReads s.params.devAddr B).length = (B.length + 31) / 32 := by
    rw [fullReads, List.length_map, length_fullChunks (Nat.le_refl _)]
  exact ⟨t, ht, htrace, hreads, hscript, BitVec.eq_of_toNat_eq hretry, BitVec.eq_of_toNat_eq (hcur.trans hB), hpst,
    hend⟩

/-- Settles O35: the loop is not entered, and step V4 reads no byte. -/
theorem receiveOfNothingReadsNothing : Obligations.ReceiveOfNothingReadsNothing := by
  intro s
  rw [exec_receive, receiveV2_complete (BitVec.lt_irrefl _), receiveV4_of_readAll (by rfl)]
  rfl

end Sys2Proof.Machine

/-! ## The command cycle against known answers (44_dispatch.md R202, R204, R208)

Past its argument test EXECUTE is WAKE and then `cycleAfterWake` (`exec_execute_accepted`). When the wake and the frame
write go well the cycle stands before its receive (`CommandSent`), and when that delivers all chunks in full, before its
idle write (`ResponseReceived`); each of the endings of R202 goes on from one of these. -/

namespace Sys2Proof.Machine

/-! `onOk`, its operation's ending known. -/

section
variable {s u : State} {o : Host.Outcome State Fault Refusal} (ho : o = .next u)
include ho

theorem onOk_of_ok {v : List Byte} (h : u.responses = s.responses ++ [.ok v])
    (f : List Byte → State → Host.Outcome State Fault Refusal) :
    onOk s o f = f v { u with responses := s.responses } := by
  rw [ho, onOk, h, List.getLast?_concat]

theorem onOk_of_error {e : Error} (h : u.responses = s.responses ++ [.error e])
    (f : List Byte → State → Host.Outcome State Fault Refusal) : onOk s o f = .next u := by
  rw [ho, onOk, h, List.getLast?_concat]

end

section
variable {expected : Byte} {data : List Byte} {s : State} (hd : dataFits s.params data) (hL : expectedFits expected)
  (opcode param1 : Byte) (param2 : Half)
include hd hL

theorem exec_execute_accepted :
    exec (.execute opcode param1 param2 expected data) s = onOk s (exec .wake s) fun _ t =>
      cycleAfterWake ⟨opcode, param1, param2, data, expected, .request⟩ t := by
  have haccept : ¬ (s.params.maxData.val < data.length ∨ expected.toNat < 3) :=
    not_or.mpr ⟨Nat.not_lt.mpr hd, Nat.not_lt.mpr hL⟩
  rw [executeIsItsSteps.2, if_neg haccept, cycleOf_eq]

end

/-- Settles O39: the error of its WAKE ends the cycle. -/
theorem executeFailsAsWakeFails : Obligations.ExecuteFailsAsWakeFails := by
  intro opcode param1 expected param2 data s u e hd hL hu he
  rw [exec_execute_accepted hd hL]
  exact onOk_of_error hu he _

/-! The wake of a cycle. -/

/-- A good wake has taken the first two of the listed answers. -/
def State.woken (s : State) (x y : Byte) (rest : List BusReply) : State :=
  { s with
    acc := 0x4333
    pst := .awake
    rxbuf := s.rxbuf.writeAll 0 [0x04, 0x11, x, y]
    seq := .ready
    script := rest
    trace := s.trace ++ [.wr s.params.wakeAddr [0x00] .ok, .dl s.params.tWhi,
      .rd s.params.devAddr 4 (.ok [0x04, 0x11, x, y])] }

section
variable {x y : Byte} {s : State} {w : List Byte} {rest : List BusReply}

theorem exec_wake_woken (hs : s.script = .ok w :: .ok [0x04, 0x11, x, y] :: rest) :
    exec .wake s = .next ((s.woken x y rest).respond (.ok [])) := by
  have hlead : crc16 [0x04, 0x11] = 0x4333 := wakeCrc_eq
  have hgood : wakeVerified 0x04 0x11 := ⟨rfl, hlead⟩
  have hdrop : s.dropReply = { s with script := .ok [0x04, 0x11, x, y] :: rest } := by simp [State.dropReply, hs]
  have hread : s.dropReply.nextReply = .ok [0x04, 0x11, x, y] := by rw [hdrop]; rfl
  rw [exec_wake_response (congrArg writeResultOf (State.nextReply_cons hs)) hread, if_pos hgood, if_pos hgood, hdrop,
    hlead]
  rfl

variable {expected : Byte} {data : List Byte} (hd : dataFits s.params data) (hL : expectedFits expected)
  (opcode param1 : Byte) (param2 : Half)
include hd hL

theorem exec_execute_woken (hs : s.script = .ok w :: .ok [0x04, 0x11, x, y] :: rest) :
    exec (.execute opcode param1 param2 expected data) s =
      cycleAfterWake ⟨opcode, param1, param2, data, expected, .request⟩ (s.woken x y rest) := by
  rw [exec_execute_accepted hd hL]
  exact onOk_of_ok (exec_wake_woken hs) rfl _

end

/-! The frame of a cycle (R30), and its write. -/

theorem frameWritten_txHolds {c : Command} {s : State} (hc : dataFits s.params c.data) (r : WriteResult) :
    txHolds s (frameWritten c r s) (commandFrame c) :=
  ⟨toNat_ofNat_length_encodeFrame hc c.opcode c.param1 c.param2, Memory.read_writeAll_zero s.txbuf _⟩

theorem cycleAfterWake_writeFails {s : State} (h : s.nextReply = .err) (c : Command) :
    cycleAfterWake c s = .next (((frameWritten c .err s).withPst .unknown).respond (.error .transportError)) := by
  rw [cycleAfterWake, h]

/-- The operations of a cycle begun in `s`, from its receive on. -/
def cycleAfterSend (expected : Byte) (s w : State) : Host.Outcome State Fault Refusal :=
  onOk s (exec (.receive expected) w) fun R t => onOk s (exec .idle t) fun _ u => exec (.decode expected R) u

theorem cycleAfterWake_written {s : State} {B : List Byte} (h : s.nextReply = .ok B) (c : Command) :
    cycleAfterWake c s =
      cycleAfterSend c.expected s ((frameWritten c .ok s).delay (execDelayOf s.params c.opcode)) := by
  rw [cycleAfterWake, h]
  rfl

/-- Settles O40: a cycle whose frame write fails has done no more than the wake and that write. -/
theorem executeEndsWhenFrameWriteFails : Obligations.ExecuteEndsWhenFrameWriteFails := by
  intro opcode param1 expected x y param2 data w rest s hd hL hs F
  exact ⟨_, exec_execute_woken hd hL opcode param1 param2 hs, ⟨rfl, rfl⟩, rfl, rfl,
    frameWritten_txHolds (c := ⟨opcode, param1, param2, data, expected, .request⟩) hd .err, rfl,
    List.append_assoc _ _ _, Memory.read_writeAll_zero s.rxbuf _, rfl, ⟨rfl, rfl, rfl⟩, rfl, rfl⟩

/-- The cycle `c` of `s` stands before its receive, and `rest` are the answers to come. -/
structure CommandSent (c : Command) (s : State) (x y : Byte) (rest : List BusReply) (w : State) : Prop where
  acc_eq : w.acc = trailer (commandFrame c) (commandFrame c).length
  tx : txHolds s w (commandFrame c)
  rx : rxHolds s w [0x04, 0x11, x, y]
  trace_eq : w.trace = s.trace ++ [.wr s.params.wakeAddr [0x00] .ok, .dl s.params.tWhi,
    .rd s.params.devAddr 4 (.ok [0x04, 0x11, x, y]), .wr s.params.devAddr (commandFrame c) .ok,
    .dl (execDelayOf s.params c.opcode)]
  script_eq : w.script = rest
  oracle_eq : w.oracle = s.oracle
  host : keepsHost s w
  responses_eq : w.responses = s.responses


section
variable {expected x y : Byte} {data w f : List Byte} {s : State} (hd : dataFits s.params data)
  (hL : expectedFits expected) (opcode param1 : Byte) (param2 : Half)
include hd hL

theorem exec_execute_sent {rest : List BusReply} (hs : s.script = .ok w :: .ok [0x04, 0x11, x, y] :: .ok f :: rest) :
    ∃ v, CommandSent ⟨opcode, param1, param2, data, expected, .request⟩ s x y rest v ∧
      exec (.execute opcode param1 param2 expected data) s = cycleAfterSend expected s v := by
  refine ⟨_, ?_, exec_execute_woken hd hL opcode param1 param2 hs⟩
  exact ⟨rfl, frameWritten_txHolds (c := ⟨opcode, param1, param2, data, expected, .request⟩) hd .ok,
    Memory.read_writeAll_zero s.rxbuf _, (List.append_assoc _ _ _).trans (List.append_assoc _ _ _), rfl, rfl,
    ⟨rfl, rfl⟩, rfl⟩

end

/-- Settles O41: `exec_receive_exhausted` in the state before the receive of the cycle, whose error ends it. -/
theorem executeEndsWhenReceiveIsExhausted : Obligations.ExecuteEndsWhenReceiveIsExhausted := by
  intro opcode param1 expected x y param2 data w f rest s hd hL hs F
  obtain ⟨v, hv, hrun⟩ := exec_execute_sent hd hL opcode param1 param2 hs
  obtain ⟨t, ht, ⟨htrace, -, hretry, hcur, htotal, hexhausted, -, hacc, htx, hhost⟩, hscript, horacle⟩ :=
    exec_receive_exhausted (Nat.lt_of_lt_of_le (by decide) hL) hv.script_eq
  obtain ⟨hpst, hresponses, hseq⟩ := hexhausted rfl
  have hresp : t.responses = s.responses ++ [.error .receiveExhausted] := by rw [hresponses, hv.responses_eq]
  refine ⟨t, hrun.trans (onOk_of_error ht hresp _), ⟨hresp, hseq⟩, hpst, BitVec.eq_of_toNat_eq hretry,
    BitVec.eq_of_toNat_eq hcur, htotal, hacc.trans hv.acc_eq, hscript, ?_, ?_, horacle.trans hv.oracle_eq,
    hhost.1.trans hv.host.1, hhost.2.trans hv.host.2⟩
  · rw [htrace, hv.trace_eq, hv.host.1]
    rfl
  · exact ⟨htx.1 ▸ hv.tx.1, fun a => (htx.2 a).trans (hv.tx.2 a)⟩

/-- The cycle `c` of `s` stands before its idle write with the response `R`, and `rest` are the answers to come. -/
structure ResponseReceived (c : Command) (s : State) (x y : Byte) (R : List Byte) (rest : List BusReply)
    (t : State) : Prop where
  acc_eq : t.acc = trailer (commandFrame c) (commandFrame c).length
  retry_eq : t.retry = 0
  cur_eq : t.cur = c.expected
  total_eq : t.total = c.expected
  tx : txHolds s t (commandFrame c)
  rx : ∀ a, t.rxbuf.read a =
    if a < R.length then R[a]? else if a < 4 then [0x04, 0x11, x, y][a]? else s.rxbuf.read a
  trace_eq : t.trace = s.trace ++ [.wr s.params.wakeAddr [0x00] .ok, .dl s.params.tWhi,
    .rd s.params.devAddr 4 (.ok [0x04, 0x11, x, y]), .wr s.params.devAddr (commandFrame c) .ok,
    .dl (execDelayOf s.params c.opcode)] ++ fullReads s.params.devAddr R
  script_eq : t.script = rest
  oracle_eq : t.oracle = s.oracle
  host : keepsHost s t
  responses_eq : t.responses = s.responses

section
variable {expected x y : Byte} {data w f R : List Byte} {s : State} (hd : dataFits s.params data)
  (hL : expectedFits expected) (hR : R.length = expected.toNat) (opcode param1 : Byte) (param2 : Half)
include hd hL hR

theorem exec_execute_received {rest : List BusReply}
    (hs : s.script = .ok w :: .ok [0x04, 0x11, x, y] :: .ok f :: (fullReplies R ++ rest)) :
    ∃ u, ResponseReceived ⟨opcode, param1, param2, data, expected, .request⟩ s x y R rest u ∧
      exec (.execute opcode param1 param2 expected data) s =
        onOk s (exec .idle u) fun _ v => exec (.decode expected R) v := by
  obtain ⟨v, hv, hrun⟩ := exec_execute_sent hd hL opcode param1 param2 hs
  obtain ⟨t, ht, ⟨htrace, -, hretry, hcur, htotal, -, hcomplete, hacc, htx, hhost⟩, hscript, horacle⟩ :=
    exec_receive_fullReplies hR hv.script_eq
  obtain ⟨-, ⟨hresponses, -⟩, hrx, -⟩ := hcomplete rfl
  have hresp : t.responses = s.responses ++ [.ok R] := by rw [hresponses, hv.responses_eq]
  refine ⟨_, ?_, hrun.trans (onOk_of_ok ht hresp _)⟩
  refine ⟨hacc.trans hv.acc_eq, BitVec.eq_of_toNat_eq hretry, BitVec.eq_of_toNat_eq (hcur.trans hR), htotal,
    ⟨htx.1 ▸ hv.tx.1, fun a => (htx.2 a).trans (hv.tx.2 a)⟩, fun a => (hrx a).trans ?_, ?_, hscript,
    horacle.trans hv.oracle_eq, ⟨hhost.1.trans hv.host.1, hhost.2.trans hv.host.2⟩, rfl⟩
  · rw [hv.rx a]
    rfl
  · exact htrace.trans (by rw [hv.trace_eq, hv.host.1])

end

theorem exec_idle_ok {s : State} {B : List Byte} {rest : List BusReply} (h : s.script = .ok B :: rest) :
    exec .idle s = .next { s with
      pst := .idle, script := rest, trace := s.trace ++ [.wr s.params.devAddr [s.params.waIdle] .ok], seq := .ready,
      responses := s.responses ++ [.ok []] } := by
  rw [(idleRunsAsStated.2 s).1 B (State.nextReply_cons h)]
  simp [State.dropReply, h]

theorem exec_idle_err {s : State} {rest : List BusReply} (h : s.script = .err :: rest) :
    exec .idle s = .next { s with
      pst := .unknown, script := rest, trace := s.trace ++ [.wr s.params.devAddr [s.params.waIdle] .err],
      seq := .ready, responses := s.responses ++ [.error .transportError] } := by
  rw [(idleRunsAsStated.2 s).2 (State.nextReply_cons h)]
  simp [State.dropReply, h]

/-- Settles O42: the failed idle write of a cycle that has its response ends it. -/
theorem executeEndsWhenIdleFails : Obligations.ExecuteEndsWhenIdleFails := by
  intro opcode param1 expected x y param2 data w f R rest s hd hL hR hs F
  obtain ⟨u, hu, hrun⟩ := exec_execute_received hd hL hR opcode param1 param2 hs
  have hresp : u.responses ++ [.error .transportError] = s.responses ++ [.error .transportError] := by
    rw [hu.responses_eq]
  refine ⟨_, hrun.trans (onOk_of_error (exec_idle_err hu.script_eq) hresp _), ⟨hresp, rfl⟩, rfl, hu.acc_eq,
    hu.retry_eq, hu.cur_eq, hu.total_eq, rfl, ?_, hu.tx, hu.oracle_eq, hu.host⟩
  rw [hu.trace_eq, hu.host.1]
  rfl

/-- Settles O43: the idle write done, DECODE of the response is what remains. -/
theorem executeRunsCommandCycle : Obligations.ExecuteRunsCommandCycle := by
  intro opcode param1 expected x y param2 data w f i R rest s hd hL hR hs F
  obtain ⟨u, hu, hrun⟩ := exec_execute_received hd hL hR opcode param1 param2 hs
  have hresp : u.responses ++ [.ok []] = s.responses ++ [.ok []] := by rw [hu.responses_eq]
  rw [onOk_of_ok (exec_idle_ok hu.script_eq) hresp, exec_decode_validate hL hR] at hrun
  refine ⟨_, hrun, ⟨rfl, rfl⟩, rfl, rfl, hu.tx, hu.retry_eq, hu.cur_eq, hu.total_eq, rfl, ?_, hu.rx, hu.oracle_eq,
    hu.host⟩
  refine (congrArg (· ++ _) hu.trace_eq).trans ?_
  rw [hu.host.1]
  rfl

theorem toNat_zoneExpected {length : Byte} (h : readLengthOk length) :
    (zoneExpected length).toNat = length.toNat + 3 := by
  rcases h with rfl | rfl <;> rfl

theorem expectedFits_zoneExpected {length : Byte} (h : readLengthOk length) : expectedFits (zoneExpected length) := by
  rw [expectedFits, toNat_zoneExpected h, rspOverhead]
  omega

/-- Settles O48: a zone read is the cycle of its command, and the payload is the response without its three other
bytes. -/
theorem zoneReadReturnsPayload : Obligations.ZoneReadReturnsPayload := by
  intro zone length x y address w f i R payload rest s hlength hR hvalid hs
  have hexpected := toNat_zoneExpected hlength
  have hL := expectedFits_zoneExpected hlength
  obtain ⟨t, ht, hend, hpst, hacc, -, -, -, -, hscript, -, -, -, hhost⟩ :=
    executeRunsCommandCycle s.params.opRead (zoneParam1 zone length) (zoneExpected length) x y address [] w f i R
      rest s (Nat.zero_le _) hL (hR.trans hexpected.symm) hs
  rw [hexpected, hvalid] at hend
  have hpayload : payload.length = length.toNat := by
    obtain ⟨-, -, rfl⟩ := validate_eq_ok hvalid
    rw [payloadPart, slice, List.length_take, List.length_drop, rspOverhead]
    omega
  rw [exec_zoneRead_eq_execute hlength]
  exact ⟨t, ht, hpayload, hend, hpst, hscript, by rw [hacc, hexpected]; rfl, hhost⟩

end Sys2Proof.Machine

/-! ## How each operation ends (10_state.md R26, 60_exceptions.md R246, R249)

Each bus operation ends in one of a few ways, and leaves the rest of the state alone (`WriteEnds`, `WakeEnds`,
`ReceiveEnds`); from these the ways EXECUTE ends (`CycleEnds`). `Tabled` puts the rules on results together, and
`exec_tabled` goes through the operations. -/

namespace Sys2Proof.Machine

/-! The power operations (41_power.md R141, R143, R145). -/

/-- What an operation makes of a state that is one bus write and then `PST <- v`. -/
def writeOutcome (d : BusAddr) (B : List Byte) (v : PowerState) (s : State) : State :=
  { s.dropReply with
    pst := match writeResultOf s.nextReply with
      | .ok => v
      | .err => .unknown
    trace := s.trace ++ [.wr d B (writeResultOf s.nextReply)]
    seq := .ready
    responses := s.responses ++ [match writeResultOf s.nextReply with
      | .ok => .ok []
      | .err => .error .transportError] }

theorem exec_idle (s : State) : exec .idle s = .next (writeOutcome s.params.devAddr [s.params.waIdle] .idle s) := by
  obtain ⟨hok, herr⟩ := idleRunsAsStated.2 s
  unfold writeOutcome
  cases h : s.nextReply with
  | ok B => exact hok B h
  | err => exact herr h

theorem exec_sleep (s : State) :
    exec .sleep s = .next (writeOutcome s.params.devAddr [s.params.waSleep] .sleeping s) := by
  obtain ⟨hok, herr⟩ := sleepRunsAsStated.2 s
  unfold writeOutcome
  cases h : s.nextReply with
  | ok B => exact hok B h
  | err => exact herr h

/-- How such an operation ends. -/
structure WriteEnds (v : PowerState) (s t : State) : Prop where
  result : (endsWith s t (.ok []) ∧ t.pst = v) ∨ (endsWith s t (.error .transportError) ∧ t.pst = .unknown)
  acc_eq : t.acc = s.acc
  counters : keepsCounters s t
  tx : keepsTx s t
  rx : keepsRx s t
  host : keepsHost s t

theorem writeOutcome_ends (d : BusAddr) (B : List Byte) (v : PowerState) (s : State) :
    WriteEnds v s (writeOutcome d B v s) := by
  refine ⟨?_, rfl, ⟨rfl, rfl, rfl⟩, ⟨rfl, fun _ => rfl⟩, fun _ => rfl, rfl, rfl⟩
  unfold writeOutcome
  cases writeResultOf s.nextReply with
  | ok => exact .inl ⟨⟨rfl, rfl⟩, rfl⟩
  | err => exact .inr ⟨⟨rfl, rfl⟩, rfl⟩

/-- How WAKE ends. -/
structure WakeEnds (s t : State) : Prop where
  result : (endsWith s t (.ok []) ∧ t.pst = .awake) ∨
    ∃ e, (e = .transportError ∨ e = .wakeVerificationFailed) ∧ endsWith s t (.error e) ∧ t.pst = .unknown
  counters : keepsCounters s t
  tx : keepsTx s t
  rx : ∀ a, 4 ≤ a → t.rxbuf.read a = s.rxbuf.read a
  host : keepsHost s t

theorem exec_wake_ends (s : State) : ∃ t, exec .wake s = .next t ∧ WakeEnds s t := by
  obtain ⟨hpulse, hread, hlength, hresponse⟩ := wakeRunsAsStated.2 s
  cases h : s.nextReply with
  | err =>
    exact ⟨_, hpulse h, .inr ⟨_, .inl rfl, ⟨rfl, rfl⟩, rfl⟩, ⟨rfl, rfl, rfl⟩, ⟨rfl, fun _ => rfl⟩, fun _ _ => rfl, rfl,
      rfl⟩
  | ok B =>
    cases hr : s.dropReply.nextReply with
    | err =>
      exact ⟨_, hread B h hr, .inr ⟨_, .inl rfl, ⟨rfl, rfl⟩, rfl⟩, ⟨rfl, rfl, rfl⟩, ⟨rfl, fun _ => rfl⟩, fun _ _ => rfl,
        rfl, rfl⟩
    | ok C =>
      rcases four_bytes C with hC | ⟨c0, c1, c2, c3, rfl⟩
      · exact ⟨_, hlength B C h hr hC, .inr ⟨_, .inr rfl, ⟨rfl, rfl⟩, rfl⟩, ⟨rfl, rfl, rfl⟩, ⟨rfl, fun _ => rfl⟩,
          fun _ _ => rfl, rfl, rfl⟩
      · obtain ⟨t, ht, -, -, hrx, hgood, hbad, -, hcounters, htx, hhost⟩ := hresponse B c0 c1 c2 c3 h hr
        refine ⟨t, ht, ?_, hcounters, htx, fun a ha => (hrx a).trans (if_neg (Nat.not_lt.mpr ha)), hhost⟩
        by_cases hv : wakeVerified c0 c1
        · obtain ⟨hpst, hend⟩ := hgood hv
          exact .inl ⟨hend, hpst⟩
        · obtain ⟨hpst, hend⟩ := hbad hv
          exact .inr ⟨_, .inr rfl, hend, hpst⟩

/-- Settles O54: the frames of `WriteEnds`, `WakeEnds` and `ReceiveEnds`. -/
theorem busOperationsKeepTheRest : Obligations.BusOperationsKeepTheRest := by
  intro s t
  refine ⟨fun h => ?idle, fun h => ?sleep, fun h => ?wake, fun total h => ?receive⟩
  case idle =>
    cases (exec_idle s).symm.trans h
    have hends := writeOutcome_ends s.params.devAddr [s.params.waIdle] .idle s
    exact ⟨hends.acc_eq, hends.counters, hends.tx, hends.rx, hends.host⟩
  case sleep =>
    cases (exec_sleep s).symm.trans h
    have hends := writeOutcome_ends s.params.devAddr [s.params.waSleep] .sleeping s
    exact ⟨hends.acc_eq, hends.counters, hends.tx, hends.rx, hends.host⟩
  case wake =>
    obtain ⟨u, hu, hends⟩ := exec_wake_ends s
    cases hu.symm.trans h
    exact ⟨hends.counters, hends.tx, hends.host, hends.rx⟩
  case receive =>
    obtain ⟨u, hu, -, hacc, htx, hhost, -⟩ := receiveReturnsAllOrNothing total s
    cases hu.symm.trans h
    exact ⟨hacc, htx, hhost⟩

/-! The command cycle (44_dispatch.md R201, R202). -/

/-- The results of a cycle that has passed its argument test, each with what it leaves in `PST`. -/
def CycleResult (r : Response) (v : PowerState) : Prop :=
  ((r = .error .transportError ∨ r = .error .wakeVerificationFailed ∨ r = .error .receiveExhausted) ∧ v = .unknown) ∨
  (((∃ payload, r = .ok payload) ∨ r = .error .checksumMismatch) ∧ v = .idle)

/-- How the cycle `c`, begun in `s`, ends. -/
structure CycleEnds (c : Command) (s t : State) (r : Response) : Prop where
  ends : endsWith s t r
  result : CycleResult r t.pst
  tx : keepsTx s t ∨ txHolds s t (commandFrame c)
  rx : r ≠ .error .receiveExhausted → ∀ a, 4 ≤ a → c.expected.toNat ≤ a → t.rxbuf.read a = s.rxbuf.read a

theorem validate_cases {raw : List Byte} {L : Nat} (h : raw.length = L) :
    (∃ payload, validate raw L = .ok payload) ∨ validate raw L = .error .checksumMismatch := by
  by_cases hsum : trailer raw L = crc16 (coveredPart raw L)
  · exact .inl ⟨_, validate_match h hsum⟩
  · exact .inr (validate_mismatch h hsum)

section
variable {expected : Byte} (hL : expectedFits expected)
include hL

/-- The cycle from its idle write on, with the response `R`. -/
theorem idleThenDecode_ends {R : List Byte} (hR : R.length = expected.toNat) {s u : State}
    (h : u.responses = s.responses) :
    ∃ t r, (onOk s (exec .idle u) fun _ v => exec (.decode expected R) v) = .next t ∧
      endsWith s t r ∧ CycleResult r t.pst ∧ r ≠ .error .receiveExhausted ∧ keepsTx u t ∧ keepsRx u t := by
  have hidle := exec_idle u
  have hends := writeOutcome_ends u.params.devAddr [u.params.waIdle] .idle u
  rcases hends.result with ⟨⟨hresp, -⟩, hpst⟩ | ⟨⟨hresp, hseq⟩, hpst⟩ <;> rw [h] at hresp
  · refine ⟨_, _, (onOk_of_ok hidle hresp _).trans (exec_decode_validate hL hR _), ⟨rfl, rfl⟩, .inr ⟨?_, hpst⟩, ?_,
      hends.tx, hends.rx⟩ <;>
      rcases validate_cases hR with ⟨payload, e⟩ | e <;> rw [e]
    · exact .inl ⟨payload, rfl⟩
    · exact .inr rfl
    · nofun
    · nofun
  · exact ⟨_, _, onOk_of_error hidle hresp _, ⟨hresp, hseq⟩, .inl ⟨.inl rfl, hpst⟩, nofun, hends.tx, hends.rx⟩

/-- The cycle from its receive on. -/
theorem cycleAfterSend_ends {s w : State} (h : w.responses = s.responses) :
    ∃ t r, cycleAfterSend expected s w = .next t ∧ endsWith s t r ∧ CycleResult r t.pst ∧ keepsTx w t ∧
      (r ≠ .error .receiveExhausted → ∀ a, expected.toNat ≤ a → t.rxbuf.read a = w.rxbuf.read a) := by
  obtain ⟨u, hu, -, -, htx, -, hcase⟩ := receiveReturnsAllOrNothing expected w
  rcases hcase with ⟨R, hR, ⟨hresp, -⟩, hrx, -⟩ | ⟨⟨hresp, hseq⟩, -, -, hpst⟩ <;> rw [h] at hresp
  · obtain ⟨t, r, ht, hend, hresult, -, htx', hrx'⟩ :=
      idleThenDecode_ends hL hR (s := s) (u := { u with responses := s.responses }) rfl
    refine ⟨t, r, (onOk_of_ok hu hresp _).trans ht, hend, hresult,
      ⟨htx'.1.trans htx.1, fun a => (htx'.2 a).trans (htx.2 a)⟩, fun _ a ha => (hrx' a).trans ?_⟩
    exact (hrx a).trans (if_neg (by omega))
  · exact ⟨u, _, onOk_of_error hu hresp _, ⟨hresp, hseq⟩, .inl ⟨.inr (.inr rfl), hpst⟩, htx, fun hne => absurd rfl hne⟩

end

/-- The cycle from its frame write on. -/
theorem cycleAfterWake_ends {c : Command} {s : State} (hc : c.fits s.params) :
    ∃ t r, cycleAfterWake c s = .next t ∧ endsWith s t r ∧ CycleResult r t.pst ∧ txHolds s t (commandFrame c) ∧
      (r ≠ .error .receiveExhausted → ∀ a, c.expected.toNat ≤ a → t.rxbuf.read a = s.rxbuf.read a) := by
  cases h : s.nextReply with
  | err =>
    exact ⟨_, _, cycleAfterWake_writeFails h c, ⟨rfl, rfl⟩, .inl ⟨.inl rfl, rfl⟩,
      frameWritten_txHolds hc.1 .err, fun _ _ _ => rfl⟩
  | ok B =>
    rw [cycleAfterWake_written h]
    obtain ⟨t, r, ht, hend, hresult, htx, hrx⟩ := cycleAfterSend_ends hc.2 (s := s)
      (w := (frameWritten c .ok s).delay (execDelayOf s.params c.opcode)) rfl
    have hframe := frameWritten_txHolds (s := s) hc.1 .ok
    exact ⟨t, r, ht, hend, hresult, ⟨htx.1 ▸ hframe.1, fun a => (htx.2 a).trans (hframe.2 a)⟩, hrx⟩

/-- EXECUTE past its argument test. -/
theorem exec_execute_ends {expected : Byte} {data : List Byte} {s : State} (hd : dataFits s.params data)
    (hL : expectedFits expected) (opcode param1 : Byte) (param2 : Half) :
    ∃ t r, exec (.execute opcode param1 param2 expected data) s = .next t ∧
      CycleEnds ⟨opcode, param1, param2, data, expected, .request⟩ s t r := by
  rw [exec_execute_accepted hd hL]
  obtain ⟨u, hu, hwake⟩ := exec_wake_ends s
  rcases hwake.result with ⟨⟨hresp, -⟩, -⟩ | ⟨e, he, ⟨hresp, hseq⟩, hpst⟩
  · have hfits : dataFits u.params data := hwake.host.1.symm ▸ hd
    obtain ⟨t, r, ht, hend, hresult, htx, hrx⟩ := cycleAfterWake_ends
      (c := ⟨opcode, param1, param2, data, expected, .request⟩) (s := { u with responses := s.responses }) ⟨hfits, hL⟩
    exact ⟨t, r, (onOk_of_ok hu hresp _).trans ht, hend, hresult,
      .inr ⟨htx.1, fun a => (htx.2 a).trans (by rw [hwake.tx.2 a])⟩,
      fun hne a h4 ha => (hrx hne a ha).trans (hwake.rx a h4)⟩
  · refine ⟨u, _, onOk_of_error hu hresp _, ⟨hresp, hseq⟩, .inl ⟨?_, hpst⟩, .inl hwake.tx,
      fun _ a h4 _ => hwake.rx a h4⟩
    exact he.imp (congrArg Response.error) fun h => .inl (congrArg Response.error h)

/-- Settles O44: refused, EXECUTE touches no buffer; else `CycleEnds`. -/
theorem commandCycleKeepsTheRest : Obligations.CommandCycleKeepsTheRest := by
  intro opcode param1 expected param2 data s t h
  have hhost : keepsHost s t := by
    obtain ⟨x, hx, hsteps, -⟩ := exec_operation (i := .execute opcode param1 param2 expected data) rfl s
    cases hx.symm.trans h
    exact ⟨hsteps.params, hsteps.requests⟩
  by_cases hguard : s.params.maxData.val < data.length ∨ expected.toNat < 3
  · cases (executeRefusesBadArguments opcode param1 expected param2 data s hguard).symm.trans h
    exact ⟨.inl ⟨rfl, fun _ => rfl⟩, fun _ _ _ _ => rfl, hhost⟩
  · obtain ⟨hd, hL⟩ := not_or.mp hguard
    obtain ⟨u, r, hu, hends⟩ := exec_execute_ends (Nat.not_lt.mp hd) (Nat.not_lt.mp hL) opcode param1 param2
    cases hu.symm.trans h
    refine ⟨hends.tx, fun hne => hends.rx ?_, hhost⟩
    rintro rfl
    exact hne hends.ends.1

theorem exec_zoneRead_refused {length : Byte} (h : ¬ readLengthOk length) (zone : Byte) (address : Half) (s : State) :
    exec (.zoneRead zone address length) s = .next (s.respond (.error .invalidArgument)) :=
  congrArg finishRun (zoneReadZ1_refused h zone address s)

/-! The table of results. -/

/-- What an operation makes of `PST`, by its result (R26). -/
def pstAfter (i : Instr) (r : Response) (old : PowerState) : PowerState :=
  match r, i with
  | .error .transportError, _ => .unknown
  | .error .wakeVerificationFailed, _ => .unknown
  | .error .receiveExhausted, _ => .unknown
  | .error .invalidArgument, _ => old
  | .error .shortResponse, _ => old
  | .error .unimplemented, _ => old
  | .ok _, .wake => .awake
  | .ok _, .idle => .idle
  | .ok _, .sleep => .sleeping
  | _, .execute _ _ _ _ _ => .idle
  | _, .zoneRead _ _ _ => .idle
  | _, _ => old

/-- The operation `i`, begun in `s`, ends in `t` with a result that its rows of the tables allow: the response, the
result, `PST`, and no effect but the response when the arguments were bad. -/
structure Tabled (i : Instr) (s t : State) (r : Response) : Prop where
  responses_eq : t.responses = s.responses ++ [r]
  listed : (∃ v, r = .ok v ∧ mayReturn i = true) ∨ ∃ e ∈ mayRaise i, r = .error e
  pst_eq : t.pst = pstAfter i r s.pst
  refused : r = .error .invalidArgument → t = s.respond r

namespace Tabled

variable {i : Instr} {s t : State}

theorem ok {v : List Byte} (hresp : t.responses = s.responses ++ [.ok v]) (hreturn : mayReturn i = true)
    (hpst : t.pst = pstAfter i (.ok v) s.pst) : Tabled i s t (.ok v) :=
  ⟨hresp, .inl ⟨v, rfl, hreturn⟩, hpst, nofun⟩

theorem error {e : Error} (hresp : t.responses = s.responses ++ [.error e]) (he : e ∈ mayRaise i)
    (hne : e ≠ .invalidArgument) (hpst : t.pst = pstAfter i (.error e) s.pst) : Tabled i s t (.error e) :=
  ⟨hresp, .inr ⟨e, he, rfl⟩, hpst, fun h => absurd (Response.error.inj h) hne⟩

/-- An operation that raises before it has done anything. -/
theorem raise {e : Error} (s : State) (he : e ∈ mayRaise i) (hpst : s.pst = pstAfter i (.error e) s.pst) :
    Tabled i s (s.respond (.error e)) (.error e) :=
  ⟨rfl, .inr ⟨e, he, rfl⟩, hpst, fun _ => rfl⟩

/-- What the two operations that run a command cycle share of the tables. -/
theorem of_cycle {c : Command} {r : Response} (h : CycleEnds c s t r) (hreturn : mayReturn i = true)
    (hraise : mayRaise i = [.transportError, .wakeVerificationFailed, .checksumMismatch, .receiveExhausted,
      .invalidArgument])
    (hidle : ∀ v, pstAfter i (.ok v) s.pst = .idle) (hmismatch : pstAfter i (.error .checksumMismatch) s.pst = .idle) :
    Tabled i s t r := by
  have hresp := h.ends.1
  rcases h.result with ⟨rfl | rfl | rfl, hpst⟩ | ⟨⟨v, rfl⟩ | rfl, hpst⟩
  · exact .error hresp (by rw [hraise]; decide) nofun hpst
  · exact .error hresp (by rw [hraise]; decide) nofun hpst
  · exact .error hresp (by rw [hraise]; decide) nofun hpst
  · exact .ok hresp hreturn (hpst.trans (hidle v).symm)
  · exact .error hresp (by rw [hraise]; decide) nofun (hpst.trans hmismatch.symm)

end Tabled

theorem exec_tabled {i : Instr} (h : isOperation i = true) (s : State) :
    ∃ t r, exec i s = .next t ∧ Tabled i s t r := by
  cases i with
  | crcBegin => exact ⟨_, _, exec_crcBegin s, .ok rfl rfl rfl⟩
  | crcUpdate bytes => exact ⟨_, _, exec_crcUpdate bytes s, .ok rfl rfl rfl⟩
  | crcEnd => exact ⟨_, _, exec_crcEnd s, .ok rfl rfl rfl⟩
  | wake =>
    obtain ⟨t, ht, hends⟩ := exec_wake_ends s
    rcases hends.result with ⟨⟨hresp, -⟩, hpst⟩ | ⟨e, rfl | rfl, ⟨hresp, -⟩, hpst⟩
    · exact ⟨t, _, ht, .ok hresp rfl hpst⟩
    · exact ⟨t, _, ht, .error hresp (by decide) nofun hpst⟩
    · exact ⟨t, _, ht, .error hresp (by decide) nofun hpst⟩
  | idle =>
    have ht := exec_idle s
    rcases (writeOutcome_ends s.params.devAddr [s.params.waIdle] .idle s).result with
      ⟨⟨hresp, -⟩, hpst⟩ | ⟨⟨hresp, -⟩, hpst⟩
    · exact ⟨_, _, ht, .ok hresp rfl hpst⟩
    · exact ⟨_, _, ht, .error hresp (by decide) nofun hpst⟩
  | sleep =>
    have ht := exec_sleep s
    rcases (writeOutcome_ends s.params.devAddr [s.params.waSleep] .sleeping s).result with
      ⟨⟨hresp, -⟩, hpst⟩ | ⟨⟨hresp, -⟩, hpst⟩
    · exact ⟨_, _, ht, .ok hresp rfl hpst⟩
    · exact ⟨_, _, ht, .error hresp (by decide) nofun hpst⟩
  | encode opcode param1 param2 data =>
    by_cases hd : dataFits s.params data
    · exact ⟨_, _, exec_encode_fits hd opcode param1 param2, .ok rfl rfl rfl⟩
    · exact ⟨_, _, exec_encode_tooLong hd opcode param1 param2, .raise s (List.mem_singleton_self _) rfl⟩
  | decode expected raw =>
    by_cases hL : expectedFits expected
    · by_cases hlen : raw.length = expected.toNat
      · have hrun := exec_decode_validate hL hlen s
        rcases validate_cases hlen with ⟨payload, e⟩ | e <;> rw [e] at hrun
        · exact ⟨_, _, hrun, .ok rfl rfl rfl⟩
        · exact ⟨_, _, hrun, .error rfl (by simp [mayRaise]) nofun rfl⟩
      · exact ⟨_, _, exec_decode_wrongLength hL hlen s, .raise s (by simp [mayRaise]) rfl⟩
    · exact ⟨_, _, exec_decode_guard hL raw s, .raise s (by simp [mayRaise]) rfl⟩
  | receive total =>
    obtain ⟨t, ht, -, -, -, -, hcase⟩ := receiveReturnsAllOrNothing total s
    rcases hcase with ⟨R, -, ⟨hresp, -⟩, -, -, -, hpst⟩ | ⟨⟨hresp, -⟩, -, -, hpst⟩
    · exact ⟨t, _, ht, .ok hresp rfl hpst⟩
    · exact ⟨t, _, ht, .error hresp (List.mem_singleton_self _) nofun hpst⟩
  | execute opcode param1 param2 expected data =>
    by_cases hguard : s.params.maxData.val < data.length ∨ expected.toNat < 3
    · exact ⟨_, _, executeRefusesBadArguments opcode param1 expected param2 data s hguard,
        .raise s (by simp [mayRaise]) rfl⟩
    · obtain ⟨hd, hL⟩ := not_or.mp hguard
      obtain ⟨t, r, ht, hends⟩ := exec_execute_ends (Nat.not_lt.mp hd) (Nat.not_lt.mp hL) opcode param1 param2
      exact ⟨t, r, ht, .of_cycle hends rfl rfl (fun _ => rfl) rfl⟩
  | zoneRead zone address length =>
    by_cases hlength : readLengthOk length
    · obtain ⟨t, r, ht, hends⟩ := exec_execute_ends (s := s) (data := []) (Nat.zero_le _)
        (expectedFits_zoneExpected hlength) s.params.opRead (zoneParam1 zone length) address
      exact ⟨t, r, (exec_zoneRead_eq_execute hlength zone address s).trans ht,
        .of_cycle hends rfl rfl (fun _ => rfl) rfl⟩
    · exact ⟨_, _, exec_zoneRead_refused hlength zone address s, .raise s (by simp [mayRaise]) rfl⟩
  | zoneWrite zone address length buffer => exact ⟨_, _, rfl, .raise s (List.mem_singleton_self _) rfl⟩
  | wireCommandFrame | wireWakePulse | wireIdleByte | wireSleepByte | wireResponseFrame => cases h

theorem exec_next_tabled {i : Instr} (h : isOperation i = true) {s t : State} (ht : exec i s = .next t) :
    ∃ r, Tabled i s t r := by
  obtain ⟨u, r, hu, htab⟩ := exec_tabled h s
  cases hu.symm.trans ht
  exact ⟨r, htab⟩

/-- An operation that leaves `PST` alone with each of its results. -/
theorem Tabled.pst_unchanged {i : Instr} {s t : State} {r : Response} (h : Tabled i s t r)
    (hok : ∀ v, pstAfter i (.ok v) s.pst = s.pst) (herror : ∀ e ∈ mayRaise i, pstAfter i (.error e) s.pst = s.pst) :
    t.pst = s.pst := by
  rw [h.pst_eq]
  rcases h.listed with ⟨v, rfl, -⟩ | ⟨e, he, rfl⟩
  · exact hok v
  · exact herror e he

/-- Settles O30: `pstAfter`, row by row. -/
theorem pstChangesOnlyByTable : Obligations.PstChangesOnlyByTable := by
  intro i s t hi h
  obtain ⟨r, htab⟩ := exec_next_tabled hi h
  refine ⟨r, htab.responses_eq, ?lost, ?kept, ?row⟩
  case lost => rintro (rfl | rfl | rfl) <;> exact htab.pst_eq
  case kept => rintro (rfl | rfl | rfl) <;> exact htab.pst_eq
  case row =>
    cases i with
    | wake | idle | sleep =>
      rintro rfl
      exact htab.pst_eq
    | receive total =>
      rintro ⟨v, rfl⟩
      exact htab.pst_eq
    | execute | zoneRead => rintro (⟨v, rfl⟩ | rfl) <;> exact htab.pst_eq
    | crcBegin | crcUpdate | crcEnd => exact htab.pst_unchanged (fun _ => rfl) nofun
    | encode | zoneWrite => exact htab.pst_unchanged (fun _ => rfl) (List.forall_mem_singleton.mpr rfl)
    | decode expected raw =>
      refine htab.pst_unchanged (fun _ => rfl) fun e he => ?_
      obtain rfl | rfl | rfl : e = .checksumMismatch ∨ e = .shortResponse ∨ e = .invalidArgument := by
        simpa [mayRaise] using he
      all_goals rfl
    | wireCommandFrame | wireWakePulse | wireIdleByte | wireSleepByte | wireResponseFrame => cases hi

/-- Settles O52: `Tabled`. -/
theorem resultsAreListedOnes : Obligations.ResultsAreListedOnes := by
  intro i s t hi h
  obtain ⟨r, htab⟩ := exec_next_tabled hi h
  exact ⟨r, htab.responses_eq, htab.listed⟩

/-- Settles O53: `Tabled`, and the response that was added is the one the table speaks of. -/
theorem invalidArgumentChangesNothing : Obligations.InvalidArgumentChangesNothing := by
  intro i s t hi h hresp
  obtain ⟨r, htab⟩ := exec_next_tabled hi h
  obtain rfl := List.singleton_inj.mp (List.append_cancel_left (htab.responses_eq.symm.trans hresp))
  exact htab.refused rfl

end Sys2Proof.Machine

/-! ## What no operation reads (41_power.md R148, 10_state.md R27 to R31)

`PST`: run from another belief an operation does the same, and `PST` is written or left alone in both runs alike
(`PstBlind`). The counters and the buffers: with all of them cleared before it an operation does the same but for them
(`bareOutcome_exec`). -/

namespace Sys2Proof.Machine

/-! The belief `PST`. -/

/-- The outcome `o` of an operation begun with `PST` = `old`, and the outcome `o'` of the same begun with `PST` = `v`:
one and the same, or next states that differ in a `PST` neither run has written. -/
def PstBlind (old v : PowerState) (o o' : Host.Outcome State Fault Refusal) : Prop :=
  o' = o ∨ ∃ t, o = .next t ∧ t.pst = old ∧ o' = .next (t.withPst v)

/-- WAKE writes `PST` however it ends. -/
theorem exec_wake_withPst (s : State) (v : PowerState) : exec .wake (s.withPst v) = exec .wake s := by
  obtain ⟨hpulse, hread, hlength, -⟩ := wakeRunsAsStated.2 s
  obtain ⟨hpulse', hread', hlength', -⟩ := wakeRunsAsStated.2 (s.withPst v)
  cases h : s.nextReply with
  | err => exact (hpulse' h).trans (hpulse h).symm
  | ok B =>
    cases hr : s.dropReply.nextReply with
    | err => exact (hread' B h hr).trans (hread B h hr).symm
    | ok C =>
      rcases four_bytes C with hC | ⟨c0, c1, c2, c3, rfl⟩
      · exact (hlength' B C h hr hC).trans (hlength B C h hr hC).symm
      · have hpulse : writeResultOf s.nextReply = .ok := congrArg writeResultOf h
        exact (exec_wake_response (s := s.withPst v) hpulse hr).trans (exec_wake_response hpulse hr).symm

/-! The passes of a receive, by the answer to the read: the state after it, and the induction over them. -/

/-- The state after a read that the transport has answered with the good chunk `C`. -/
def afterGoodRead (p : Parent) (C : List Byte) (s : State) : State :=
  ((((s.goto (.v2 p)).afterRead s.params.devAddr (chunkSize s)).goto (.v3 p (.ok C))).storeRx s.cur.toNat C).advance
    C.length

/-- The state after a failed read. -/
def afterFailedRead (p : Parent) (s : State) : State :=
  (((s.goto (.v2 p)).afterRead s.params.devAddr (chunkSize s)).goto (.v3 p s.nextReply)).countFailure

theorem afterGoodRead_withPst (p : Parent) (C : List Byte) (s : State) (v : PowerState) :
    afterGoodRead p C (s.withPst v) = (afterGoodRead p C s).withPst v := rfl

theorem afterFailedRead_withPst (p : Parent) (s : State) (v : PowerState) :
    afterFailedRead p (s.withPst v) = (afterFailedRead p s).withPst v := rfl

theorem afterGoodRead_pst (p : Parent) (C : List Byte) (s : State) : (afterGoodRead p C s).pst = s.pst := by
  rw [afterGoodRead, State.advance_pst, State.storeRx_pst, State.goto_pst, State.afterRead_pst, State.goto_pst]

theorem afterFailedRead_pst (p : Parent) (s : State) : (afterFailedRead p s).pst = s.pst := by
  rw [afterFailedRead, State.countFailure_pst, State.goto_pst, State.afterRead_pst, State.goto_pst]

/-- The next answer is no good chunk. -/
abbrev readFails (s : State) : Prop := ∀ C, s.nextReply = .ok C → ¬ goodChunk s C

/-- `receive_induction`, its pass split by the answer. -/
theorem receive_read_induction {P : State → Prop} (p : Parent)
    (complete : ∀ s, ¬ s.cur < s.total → P s)
    (good : ∀ s C, s.cur < s.total → s.nextReply = .ok C → goodChunk s C → P (afterGoodRead p C s) → P s)
    (failed : ∀ s, s.cur < s.total → readFails s → s.retry + 1 ≠ retryMax → P (afterFailedRead p s) → P s)
    (exhausted : ∀ s, s.cur < s.total → readFails s → s.retry + 1 = retryMax → P s)
    (s : State) : P s := by
  refine receive_induction p complete (fun s hlt ih => ?_) s
  rcases receiveV3_cases p s.nextReply ((s.goto (.v2 p)).afterRead s.params.devAddr (chunkSize s)) with
    ⟨C, hr, hC, e⟩ | ⟨hbad, hne, e⟩ | ⟨hbad, hlast, -⟩
  · rw [hr] at e ih
    exact good s C hlt hr hC (ih _ e)
  · exact failed s hlt hbad hne (ih _ e)
  · exact exhausted s hlt hbad hlast

theorem receiveV4_fault {s : State} (h : s.rxbuf.readAll 0 s.total.toNat = none) (p : Parent) :
    receiveV4 p s = .error .unspecifiedBuffer := by
  rw [receiveV4, h]

/-- Step V4 leaves `PST` alone. -/
theorem receiveV4_pstBlind (p : Parent) (s : State) (v : PowerState) :
    PstBlind s.pst v (finishRun (receiveV4 p s)) (finishRun (receiveV4 p (s.withPst v))) := by
  cases hb : s.rxbuf.readAll 0 s.total.toNat with
  | some bytes =>
    rw [receiveV4_of_readAll hb, receiveV4_of_readAll (s := s.withPst v) hb]
    exact .inr ⟨_, rfl, rfl, rfl⟩
  | none =>
    rw [receiveV4_fault hb, receiveV4_fault (s := s.withPst v) hb]
    exact .inl rfl

/-- The reads of a receive leave `PST` alone, and the 20th failed one writes it. -/
theorem receiveV2_pstBlind (p : Parent) (s : State) (v : PowerState) :
    PstBlind s.pst v (finishRun (receiveV2 p s)) (finishRun (receiveV2 p (s.withPst v))) := by
  refine receive_read_induction
    (P := fun s => PstBlind s.pst v (finishRun (receiveV2 p s)) (finishRun (receiveV2 p (s.withPst v)))) p
    (fun s hc => ?complete) (fun s C hlt hr hC ih => ?good) (fun s hlt hbad hne ih => ?failed)
    (fun s hlt hbad hlast => ?exhausted) s
  case complete =>
    rw [receiveV2_complete hc, receiveV2_complete (s := s.withPst v) hc]
    exact receiveV4_pstBlind p (s.goto (.v2 p)) v
  case good =>
    have hrun : receiveV2 p s = receiveV2 p (afterGoodRead p C s) := receiveV2_good hlt hr hC
    have hrun' : receiveV2 p (s.withPst v) = receiveV2 p (afterGoodRead p C (s.withPst v)) := receiveV2_good hlt hr hC
    rwa [hrun, hrun', afterGoodRead_withPst, ← afterGoodRead_pst p C s]
  case failed =>
    have hrun : receiveV2 p s = receiveV2 p (afterFailedRead p s) := receiveV2_failed hlt hbad hne
    have hrun' : receiveV2 p (s.withPst v) = receiveV2 p (afterFailedRead p (s.withPst v)) :=
      receiveV2_failed hlt hbad hne
    rwa [hrun, hrun', afterFailedRead_withPst, ← afterFailedRead_pst p s]
  case exhausted =>
    rw [receiveV2_exhausted hlt hbad hlast, receiveV2_exhausted (s := s.withPst v) hlt hbad hlast]
    exact .inl rfl

/-- EXECUTE past its argument test begins with WAKE, which leaves nothing of the old `PST`. -/
theorem exec_execute_pstBlind (opcode param1 : Byte) (param2 : Half) (expected : Byte) (data : List Byte) (s : State)
    (v : PowerState) : PstBlind s.pst v (exec (.execute opcode param1 param2 expected data) s)
      (exec (.execute opcode param1 param2 expected data) (s.withPst v)) := by
  by_cases hguard : s.params.maxData.val < data.length ∨ expected.toNat < 3
  · exact .inr ⟨_, executeRefusesBadArguments opcode param1 expected param2 data s hguard, rfl,
      executeRefusesBadArguments opcode param1 expected param2 data (s.withPst v) hguard⟩
  · obtain ⟨hd, hL⟩ := not_or.mp hguard
    rw [exec_execute_accepted (Nat.not_lt.mp hd) (Nat.not_lt.mp hL),
      exec_execute_accepted (s := s.withPst v) (Nat.not_lt.mp hd) (Nat.not_lt.mp hL), exec_wake_withPst]
    exact .inl rfl

theorem exec_pstBlind (i : Instr) (s : State) (v : PowerState) :
    PstBlind s.pst v (exec i s) (exec i (s.withPst v)) := by
  cases i with
  | crcBegin | crcUpdate | crcEnd | zoneWrite => exact .inr ⟨_, rfl, rfl, rfl⟩
  | wake => exact .inl (exec_wake_withPst s v)
  | idle => exact .inl ((exec_idle (s.withPst v)).trans (exec_idle s).symm)
  | sleep => exact .inl ((exec_sleep (s.withPst v)).trans (exec_sleep s).symm)
  | encode opcode param1 param2 data =>
    by_cases hd : dataFits s.params data
    · exact .inr ⟨_, exec_encode_fits hd _ _ _, rfl, exec_encode_fits (s := s.withPst v) hd _ _ _⟩
    · exact .inr ⟨_, exec_encode_tooLong hd _ _ _, rfl, exec_encode_tooLong (s := s.withPst v) hd _ _ _⟩
  | decode expected raw =>
    by_cases hL : expectedFits expected
    · by_cases hlen : raw.length = expected.toNat
      · exact .inr ⟨_, exec_decode_validate hL hlen s, rfl, exec_decode_validate hL hlen (s.withPst v)⟩
      · exact .inr ⟨_, exec_decode_wrongLength hL hlen s, rfl, exec_decode_wrongLength hL hlen (s.withPst v)⟩
    · exact .inr ⟨_, exec_decode_guard hL raw s, rfl, exec_decode_guard hL raw (s.withPst v)⟩
  | receive total => exact receiveV2_pstBlind .host ((s.goto (.v1 .host total)).startReceive total) v
  | execute opcode param1 param2 expected data => exact exec_execute_pstBlind _ _ _ _ _ s v
  | zoneRead zone address length =>
    by_cases hlength : readLengthOk length
    · rw [exec_zoneRead_eq_execute hlength, exec_zoneRead_eq_execute hlength]
      exact exec_execute_pstBlind _ _ _ _ _ s v
    · exact .inr ⟨_, exec_zoneRead_refused hlength zone address s, rfl,
        exec_zoneRead_refused hlength zone address (s.withPst v)⟩
  | wireCommandFrame opcode param1 param2 data =>
    by_cases hd : dataFits s.params data
    · exact .inr ⟨_, exec_wireCommandFrame_fits hd _ _ _, rfl, exec_wireCommandFrame_fits (s := s.withPst v) hd _ _ _⟩
    · exact .inl ((exec_wireCommandFrame_tooLong (s := s.withPst v) hd _ _ _).trans
        (exec_wireCommandFrame_tooLong hd _ _ _).symm)
  | wireWakePulse | wireIdleByte | wireSleepByte => exact .inr ⟨_, rfl, rfl, rfl⟩
  | wireResponseFrame count payload checksum =>
    exact .inr ⟨_, wireResponseFrameIsChecked count payload checksum s, rfl,
      wireResponseFrameIsChecked count payload checksum (s.withPst v)⟩

/-- Settles O56: the two cases of `PstBlind`. -/
theorem noOperationReadsPst : Obligations.NoOperationReadsPst := by
  intro i s t v h
  rcases exec_pstBlind i s v with hsame | ⟨u, hu, hpst, hu'⟩
  · exact ⟨t, hsame.trans h, rfl, .inl rfl⟩
  · cases hu.symm.trans h
    exact ⟨_, hu', rfl, .inr ⟨rfl, hpst⟩⟩

/-! The counters and the buffers. -/

/-- The state with nothing in the counters and the buffers. -/
def State.bare (s : State) : State :=
  { s with retry := 0, cur := 0, total := 0, txbuf := [], txlen := 0, rxbuf := [] }

/-- An outcome, whatever the next state has in the counters and the buffers. -/
def bareOutcome : Host.Outcome State Fault Refusal → Host.Outcome State Fault Refusal
  | .next t => .next t.bare
  | o => o

/-- An operation does the same, but for the counters and the buffers, in two states that agree but for these. -/
theorem bareOutcome_congr {f : State → Host.Outcome State Fault Refusal}
    (hf : ∀ s, bareOutcome (f s) = bareOutcome (f s.bare)) {s u : State} (h : s.bare = u.bare) :
    bareOutcome (f s) = bareOutcome (f u) := by
  rw [hf s, h, ← hf u]

/-- The same of an operation and the rest of a larger one. -/
theorem onOk_bare {s u : State} (hresp : s.responses = u.responses) {o o' : Host.Outcome State Fault Refusal}
    (ho : bareOutcome o = bareOutcome o') {f f' : List Byte → State → Host.Outcome State Fault Refusal}
    (hf : ∀ v t t', t.bare = t'.bare → bareOutcome (f v t) = bareOutcome (f' v t')) :
    bareOutcome (onOk s o f) = bareOutcome (onOk u o' f') := by
  cases o with
  | next t =>
    cases o' with
    | next t' =>
      have hbare : t.bare = t'.bare := by injection ho
      have hresp' : t.responses = t'.responses := (congrArg State.responses hbare :)
      have hagain : ({ t with responses := s.responses } : State).bare =
          ({ t' with responses := u.responses } : State).bare := by
        rw [← hresp]
        exact congrArg (fun x : State => { x with responses := s.responses }) hbare
      rw [onOk, onOk, hresp']
      split
      · exact hf _ _ _ hagain
      · exact congrArg Host.Outcome.next hbare
    | fault e => cases ho
    | refused e => cases ho
  | fault e =>
    cases o' with
    | next t' => cases ho
    | fault e' => exact ho
    | refused e' => cases ho
  | refused e =>
    cases o' with
    | next t' => cases ho
    | fault e' => cases ho
    | refused e' => exact ho

section
variable (s : State)

theorem exec_idle_bare : bareOutcome (exec .idle s) = bareOutcome (exec .idle s.bare) := by
  rw [exec_idle, exec_idle]
  rfl

theorem exec_wake_bare : bareOutcome (exec .wake s) = bareOutcome (exec .wake s.bare) := by
  obtain ⟨hpulse, hread, hlength, -⟩ := wakeRunsAsStated.2 s
  obtain ⟨hpulse', hread', hlength', -⟩ := wakeRunsAsStated.2 s.bare
  cases h : s.nextReply with
  | err =>
    rw [hpulse h, hpulse' h]
    rfl
  | ok B =>
    cases hr : s.dropReply.nextReply with
    | err =>
      rw [hread B h hr, hread' B h hr]
      rfl
    | ok C =>
      rcases four_bytes C with hC | ⟨c0, c1, c2, c3, rfl⟩
      · rw [hlength B C h hr hC, hlength' B C h hr hC]
        rfl
      · have hpulse : writeResultOf s.nextReply = .ok := congrArg writeResultOf h
        rw [exec_wake_response hpulse hr, exec_wake_response (s := s.bare) hpulse hr]
        rfl

theorem exec_decode_bare (expected : Byte) (raw : List Byte) :
    bareOutcome (exec (.decode expected raw) s) = bareOutcome (exec (.decode expected raw) s.bare) := by
  by_cases hL : expectedFits expected
  · by_cases hlen : raw.length = expected.toNat
    · rw [exec_decode_validate hL hlen, exec_decode_validate hL hlen]
      rfl
    · rw [exec_decode_wrongLength hL hlen, exec_decode_wrongLength hL hlen]
      rfl
  · rw [exec_decode_guard hL, exec_decode_guard hL]
    rfl

theorem nextReplies_bare (n : Nat) : nextReplies n s.bare = nextReplies n s := by
  induction n generalizing s with
  | zero => rfl
  | succ n ih => exact congrArg (s.nextReply :: ·) (ih s.dropReply)

theorem dropReplies_bare (n : Nat) : dropReplies n s.bare = (dropReplies n s).bare := by
  induction n generalizing s with
  | zero => rfl
  | succ n ih => exact ih s.dropReply

/-- What a receive that ends as `g` makes of a state, the counters and the buffers apart. -/
def receiveOutcome (g : Gathered) (s : State) : State :=
  { s.bare with
    pst := if g.exhausted then .unknown else s.pst
    seq := .ready
    responses := s.responses ++ [if g.exhausted then .error .receiveExhausted else .ok g.got]
    script := (dropReplies g.events.length s).script
    oracle := (dropReplies g.events.length s).oracle
    trace := s.trace ++ g.events }

theorem bare_of_receiveEnds {s t : State} {total : Byte} {g : Gathered} (h : ReceiveEnds s total g t) :
    t.bare = receiveOutcome g s := by
  obtain ⟨htrace, ⟨hscript, horacle⟩, -, -, -, hexhausted, hcomplete, hacc, -, hparams, hrequests⟩ := h
  have hend : t.pst = (if g.exhausted then .unknown else s.pst) ∧ t.seq = .ready ∧ t.responses =
      s.responses ++ [if g.exhausted then .error .receiveExhausted else .ok g.got] := by
    cases hg : g.exhausted with
    | true =>
      obtain ⟨hpst, hresp, hseq⟩ := hexhausted hg
      exact ⟨hpst, hseq, hresp⟩
    | false =>
      obtain ⟨hpst, ⟨hresp, hseq⟩, -⟩ := hcomplete hg
      exact ⟨hpst, hseq, hresp⟩
  obtain ⟨hpst, hseq, hresp⟩ := hend
  simp only [State.bare, receiveOutcome, htrace, hscript, horacle, hacc, hparams, hrequests, hpst, hseq, hresp]

theorem exec_receive_bare (total : Byte) :
    bareOutcome (exec (.receive total) s) = bareOutcome (exec (.receive total) s.bare) := by
  obtain ⟨-, g, t, hg, ht, hend⟩ := receiveRefinesGather total s
  obtain ⟨-, g', t', hg', ht', hend'⟩ := receiveRefinesGather total s.bare
  rw [nextReplies_bare] at hg'
  obtain rfl := Option.some.inj (hg.symm.trans hg')
  have hsame : receiveOutcome g s.bare = receiveOutcome g s := by
    rw [receiveOutcome, dropReplies_bare]
    rfl
  rw [ht, ht', bareOutcome, bareOutcome, bare_of_receiveEnds hend, bare_of_receiveEnds hend', hsame]

theorem cycleAfterSend_bare {s u w w' : State} (hresp : s.responses = u.responses) (h : w.bare = w'.bare)
    (expected : Byte) : bareOutcome (cycleAfterSend expected s w) = bareOutcome (cycleAfterSend expected u w') :=
  onOk_bare hresp (bareOutcome_congr (exec_receive_bare · expected) h) fun R _ _ ht =>
    onOk_bare hresp (bareOutcome_congr exec_idle_bare ht) fun _ _ _ hu =>
      bareOutcome_congr (exec_decode_bare · expected R) hu

theorem cycleAfterWake_bare (c : Command) :
    bareOutcome (cycleAfterWake c s) = bareOutcome (cycleAfterWake c s.bare) := by
  cases h : s.nextReply with
  | err =>
    rw [cycleAfterWake_writeFails h, cycleAfterWake_writeFails (s := s.bare) h]
    rfl
  | ok B =>
    rw [cycleAfterWake_written h, cycleAfterWake_written (s := s.bare) h]
    exact cycleAfterSend_bare (by rfl) (by rfl) c.expected

theorem exec_execute_bare (opcode param1 : Byte) (param2 : Half) (expected : Byte) (data : List Byte) :
    bareOutcome (exec (.execute opcode param1 param2 expected data) s) =
      bareOutcome (exec (.execute opcode param1 param2 expected data) s.bare) := by
  by_cases hguard : s.params.maxData.val < data.length ∨ expected.toNat < 3
  · rw [executeRefusesBadArguments _ _ _ _ _ s hguard, executeRefusesBadArguments _ _ _ _ _ s.bare hguard]
    rfl
  · obtain ⟨hd, hL⟩ := not_or.mp hguard
    rw [exec_execute_accepted (Nat.not_lt.mp hd) (Nat.not_lt.mp hL),
      exec_execute_accepted (s := s.bare) (Nat.not_lt.mp hd) (Nat.not_lt.mp hL)]
    exact onOk_bare rfl (exec_wake_bare s) fun _ t t' ht =>
      bareOutcome_congr (cycleAfterWake_bare · ⟨opcode, param1, param2, data, expected, .request⟩) ht

theorem exec_bare (i : Instr) : bareOutcome (exec i s) = bareOutcome (exec i s.bare) := by
  cases i with
  | crcBegin | crcUpdate | crcEnd | zoneWrite | wireWakePulse | wireIdleByte | wireSleepByte => rfl
  | wake => exact exec_wake_bare s
  | idle => exact exec_idle_bare s
  | sleep =>
    rw [exec_sleep, exec_sleep]
    rfl
  | encode opcode param1 param2 data =>
    by_cases hd : dataFits s.params data
    · rw [exec_encode_fits hd, exec_encode_fits (s := s.bare) hd]
      rfl
    · rw [exec_encode_tooLong hd, exec_encode_tooLong (s := s.bare) hd]
      rfl
  | decode expected raw => exact exec_decode_bare s expected raw
  | receive total => exact exec_receive_bare s total
  | execute opcode param1 param2 expected data => exact exec_execute_bare s opcode param1 param2 expected data
  | zoneRead zone address length =>
    by_cases hlength : readLengthOk length
    · rw [exec_zoneRead_eq_execute hlength, exec_zoneRead_eq_execute hlength]
      exact exec_execute_bare s _ _ _ _ _
    · rw [exec_zoneRead_refused hlength, exec_zoneRead_refused hlength]
      rfl
  | wireCommandFrame opcode param1 param2 data =>
    by_cases hd : dataFits s.params data
    · rw [exec_wireCommandFrame_fits hd, exec_wireCommandFrame_fits (s := s.bare) hd]
      rfl
    · rw [exec_wireCommandFrame_tooLong hd, exec_wireCommandFrame_tooLong (s := s.bare) hd]
  | wireResponseFrame count payload checksum =>
    rw [wireResponseFrameIsChecked count payload checksum s, wireResponseFrameIsChecked count payload checksum s.bare]
    rfl

end

/-- Settles O57: the two states are the same when they are bare, so the outcomes are the same when they are. -/
theorem noOperationReadsLeftovers : Obligations.NoOperationReadsLeftovers := by
  intro i s t retry cur total txbuf rxbuf txlen h
  have hsame := bareOutcome_congr (exec_bare · i) (s := s) (u := { s with
    retry := retry, cur := cur, total := total, txbuf := txbuf, txlen := txlen, rxbuf := rxbuf }) rfl
  rw [h] at hsame
  cases hu : exec i { s with
      retry := retry, cur := cur, total := total, txbuf := txbuf, txlen := txlen, rxbuf := rxbuf } with
  | next u =>
    rw [hu] at hsame
    have hbare : u.bare = t.bare := by injection hsame.symm
    have same {γ : Type} (f : State → γ) : f u.bare = f t.bare := congrArg f hbare
    exact ⟨u, rfl, same State.responses, same State.trace, same State.script, same State.oracle, same State.acc,
      same State.pst, same State.seq⟩
  | fault e =>
    rw [hu] at hsame
    cases hsame
  | refused e =>
    rw [hu] at hsame
    cases hsame

end Sys2Proof.Machine
